-- ==== Sys2Proof/Word.lean ====
section
/-! DEFINITION. The words of the machine: every quantity is an unsigned bit pattern (spec 00_scope.md R6, R7, R10). -/

namespace Sys2Proof

/-- A byte: one V register, one timer, one memory cell (XLEN = 8, R6). -/
abbrev Byte := BitVec 8

/-- A 16-bit word: `I`, `pc`, a call-stack entry, the opcode (ALEN = 16, R6). -/
abbrev Word := BitVec 16

/-- The index of a general register V0..VF, as nibble 2 or 3 of an opcode spells it (R20, R81). -/
abbrev RegIx := BitVec 4

/-- A nibble that names no register: the height of DRW, or an ignored low nibble (R81). -/
abbrev Nibble := BitVec 4

/-- A logical key 0x0..0xF (R30). -/
abbrev Key := BitVec 4

/-- A 12-bit logical address field, before its translation (R54, R81). -/
abbrev Addr := BitVec 12

end Sys2Proof
end

