-- ==== Sys2Proof/Config.lean ====
section
/-! DEFINITION. What the spec leaves to the implementation or the environment (spec 00_scope.md R6, 60_exceptions.md R213,
R216, R226): the two OPEN parameters, and the random byte. None has a body, so no proof can lean on a value. -/

namespace Sys2Proof

/-- The two parameters R6 marks OPEN. `batchPred` is `BATCH - 1`, so that `BATCH` is at least 1 (R213, D11);
`finalTick` is `FINAL_TICK` (R216, D12). -/
structure Params where
  batchPred : Nat
  finalTick : Bool
  deriving DecidableEq, Repr, Inhabited

/-- `BATCH`, the number of steps between two timer decrements. -/
def Params.batch (p : Params) : Nat := p.batchPred + 1

/-- The parameters of this machine: unknown. Log entries 1 and 2. -/
opaque Config.params : Params

/-- The answer of the random source at its `k`-th use: a free value, under no law (R226, D19). Log entry 3. -/
opaque Config.randByte : Nat → Byte

end Sys2Proof
end

