-- ==== Sys2Proof/Machine/Flags.lean ====
section
/-! DEFINITION. The values the flag-producing instructions give VF (spec 10_state.md R21). -/

namespace Sys2Proof.Machine

/-- A condition as the byte VF holds: 1 or 0. -/
def flagByte (c : Bool) : Byte := if c then 1 else 0

/-- Carry out of bit 7 of `a + b` (R146). -/
def carryFlag (a b : Byte) : Byte := flagByte (decide (255 < a.toNat + b.toNat))

/-- Not borrow of `a - b`: 1 when `a >= b`, unsigned (R147, R149). -/
def notBorrowFlag (a b : Byte) : Byte := flagByte (decide (b.toNat ≤ a.toNat))

/-- Bit 0, which SHR shifts out (R148). -/
def bit0Flag (a : Byte) : Byte := a &&& 1

/-- Bit 6, which SHL records; the bit shifted out is bit 7 (R151). -/
def bit6Flag (a : Byte) : Byte := (a >>> 6) &&& 1

end Sys2Proof.Machine
end

