-- ==== Sys2Proof/Syntax.lean ====
section
/-! DEFINITION. The instructions: one constructor per row of spec/opcode_table.json (spec 30_encoding.md R84).
Operand fields keep every bit of the encoding, the ignored ones too, so that a word and its instruction determine each other. -/

namespace Sys2Proof

/-- One constructor per row of the opcode table, in the table's order. -/
inductive Instr where
  /-- 0000 HALT, the halt sentinel (R104). -/
  | halt
  /-- 00E0 CLS (R180). -/
  | cls
  /-- 00EE RET (R120). -/
  | ret
  /-- 00C1 NOP, a placeholder word (R105). -/
  | nop00C1
  /-- 00C2 NOP, a placeholder word (R105). -/
  | nop00C2
  /-- 00C3 NOP, a placeholder word (R105). -/
  | nop00C3
  /-- 00C4 NOP, a placeholder word (R105). -/
  | nop00C4
  /-- 00C5 NOP, a placeholder word (R105). -/
  | nop00C5
  /-- 00C6 NOP, a placeholder word (R105). -/
  | nop00C6
  /-- 00C7 NOP, a placeholder word (R105). -/
  | nop00C7
  /-- 00C8 NOP, a placeholder word (R105). -/
  | nop00C8
  /-- 00C9 NOP, a placeholder word (R105). -/
  | nop00C9
  /-- 00CA NOP, a placeholder word (R105). -/
  | nop00CA
  /-- 00CB NOP, a placeholder word (R105). -/
  | nop00CB
  /-- 00CC NOP, a placeholder word (R105). -/
  | nop00CC
  /-- 00CD NOP, a placeholder word (R105). -/
  | nop00CD
  /-- 00CF NOP, a placeholder word (R105). -/
  | nop00CF
  /-- 00F1 NOP, a placeholder word (R105). -/
  | nop00F1
  /-- 00F2 NOP, a placeholder word (R105). -/
  | nop00F2
  /-- 00F3 NOP, a placeholder word (R105). -/
  | nop00F3
  /-- 00F4 NOP, a placeholder word (R105). -/
  | nop00F4
  /-- 00F5 NOP, a placeholder word (R105). -/
  | nop00F5
  /-- 00F6 NOP, a placeholder word (R105). -/
  | nop00F6
  /-- 00F7 NOP, a placeholder word (R105). -/
  | nop00F7
  /-- 00F8 NOP, a placeholder word (R105). -/
  | nop00F8
  /-- 00F9 NOP, a placeholder word (R105). -/
  | nop00F9
  /-- 00FA NOP, a placeholder word (R105). -/
  | nop00FA
  /-- 00FB NOP, a placeholder word (R105). -/
  | nop00FB
  /-- 00FC NOP, a placeholder word (R105). -/
  | nop00FC
  /-- 00FD NOP, a placeholder word (R105). -/
  | nop00FD
  /-- 00FF NOP, a placeholder word (R105). -/
  | nop00FF
  /-- 1nnn JP addr (R121). -/
  | jp (addr : Addr)
  /-- 2nnn CALL addr (R122). -/
  | call (addr : Addr)
  /-- 3xkk SE Vx, kk (R123). -/
  | seImm (x : RegIx) (kk : Byte)
  /-- 4xkk SNE Vx, kk (R124). -/
  | sneImm (x : RegIx) (kk : Byte)
  /-- 5xy0 SE Vx, Vy; the low nibble is not examined (R89, R125). -/
  | seReg (x y : RegIx) (ignored : Nibble)
  /-- 6xkk LD Vx, kk (R140). -/
  | ldImm (x : RegIx) (kk : Byte)
  /-- 7xkk ADD Vx, kk (R141). -/
  | addImm (x : RegIx) (kk : Byte)
  /-- 8xy0 LD Vx, Vy (R142). -/
  | ldReg (x y : RegIx)
  /-- 8xy1 OR Vx, Vy (R143). -/
  | orReg (x y : RegIx)
  /-- 8xy2 AND Vx, Vy (R144). -/
  | andReg (x y : RegIx)
  /-- 8xy3 XOR Vx, Vy (R145). -/
  | xorReg (x y : RegIx)
  /-- 8xy4 ADD Vx, Vy (R146). -/
  | addReg (x y : RegIx)
  /-- 8xy5 SUB Vx, Vy (R147). -/
  | subReg (x y : RegIx)
  /-- 8xy6 SHR Vx; `y` is encoded and ignored (R148, R150). -/
  | shr (x y : RegIx)
  /-- 8xy7 SUBN Vx, Vy (R149). -/
  | subnReg (x y : RegIx)
  /-- 8xyE SHL Vx; `y` is encoded and ignored (R150, R151). -/
  | shl (x y : RegIx)
  /-- 9xy0 SNE Vx, Vy; the low nibble is not examined (R89, R126). -/
  | sneReg (x y : RegIx) (ignored : Nibble)
  /-- Annn LD I, addr (R160). -/
  | ldI (addr : Addr)
  /-- Bnnn JP V0, addr (R127). -/
  | jpV0 (addr : Addr)
  /-- Cxkk RND Vx, kk (R152). -/
  | rnd (x : RegIx) (kk : Byte)
  /-- Dxyn DRW Vx, Vy, n (R181). -/
  | drw (x y : RegIx) (n : Nibble)
  /-- Ex9E SKP Vx (R190). -/
  | skp (x : RegIx)
  /-- ExA1 SKNP Vx (R191). -/
  | sknp (x : RegIx)
  /-- Fx07 LD Vx, DT (R193). -/
  | ldVxDt (x : RegIx)
  /-- Fx0A LD Vx, K (R192). -/
  | ldVxK (x : RegIx)
  /-- Fx15 LD DT, Vx (R194). -/
  | ldDtVx (x : RegIx)
  /-- Fx18 LD ST, Vx (R195). -/
  | ldStVx (x : RegIx)
  /-- Fx1E ADD I, Vx (R161). -/
  | addI (x : RegIx)
  /-- Fx29 LD F, Vx (R162). -/
  | ldF (x : RegIx)
  /-- Fx33 LD B, Vx (R163). -/
  | ldB (x : RegIx)
  /-- Fx55 LD [I], Vx (R164). -/
  | ldMemVx (x : RegIx)
  /-- Fx65 LD Vx, [I] (R165). -/
  | ldVxMem (x : RegIx)
  deriving DecidableEq, Repr

end Sys2Proof
end

