-- ==== Sys2Proof/Machine/State.lean ====
section
/-! DEFINITION. The state of the machine (spec 10_state.md R20 to R32), the events of its boundary (60_exceptions.md R225), the
reasons a step can stop (R201), and the state after reset (R34). -/

namespace Sys2Proof.Machine

/-- The Interpreter's states (R31, R100). -/
inductive RunState where
  | notRunning
  | running
  | halted
  deriving DecidableEq, Repr

/-- A platform key, by its legend (R218); `other` is every code outside the 16-entry mapping. -/
inductive PlatformKey where
  | k1 | k2 | k3 | k4
  | q | w | e | r
  | a | s | d | f
  | z | x | c | v
  | other (code : Nat)
  deriving DecidableEq, Repr

/-- The input events of the block (R225). The `RandByte` answer is `Config.randByte`; the output event `Present` is the field
`presented` of `State`. -/
inductive Event where
  /-- The host loads a ROM (R242). -/
  | load (bytes : List Byte)
  /-- The host could not read a ROM (R244). -/
  | loadFail
  /-- The host starts the run loop (R245). -/
  | run
  /-- The host asks the run loop to stop (R246). -/
  | stop
  /-- The UI layer reports a key going down (R219). -/
  | keyDown (code : PlatformKey)
  /-- The UI layer reports a key going up (R220). -/
  | keyUp (code : PlatformKey)
  deriving DecidableEq, Repr

/-- Whose turn a step of the model is: the interpreter's, or that of the agent whose event arrives (R64, R206, R227). -/
inductive Turn where
  | interpreter
  | event (e : Event)
  deriving DecidableEq, Repr

/-- RAM as the cells whose byte differs from the reset contents, in rising order of address (R27; `memWf`). -/
abbrev Memory := List Host.Cell

/-- The framebuffer: row `py` is the word `fb[py]`, and pixel (px, py) is its bit `px` (R29). -/
abbrev FrameBuffer := Vector (BitVec 64) 32

/-- The three model faults of R201, each raised before the instruction writes anything. The step that meets one records it in
`State.faulted`; while it is recorded, the interpreter's turn answers it again (R202; log entry 32). -/
inductive Fault where
  /-- CALL with 16 calls outstanding (R122). Raised by `execCall`. Safe: the source calls it undefined, the model stops. -/
  | stackOverflow (pc : Word)
  /-- RET with no call outstanding (R120). Raised by `execRet`. Safe: the source says nothing, the model stops. -/
  | stackUnderflow (pc : Word)
  /-- The fetched word is in the unmatched set (R106). Raised by `interpreterStep`. Safe: the hardware re-fetches the word for
  ever or, in cases the source does not identify, advances; the model stops. -/
  | unmatchedOpcode (pc : Word) (opcode : Word)
  deriving DecidableEq, Repr

/-- What the model declines. -/
inductive Refusal where
  /-- An instruction without a meaning. Raised by no arm of `exec`: every instruction has its meaning. Safe. -/
  | notModelled (mnemonic : String)
  /-- A `Load` or `LoadFail` against an active run loop: a breach of the host's duty with no defined result (R69, R251). Raised by
  `deliver`. Safe: the model has no transition there. -/
  | loadWhileRunning
  deriving DecidableEq, Repr

/-- Everything the spec gives the machine (R20 to R32, R202), then three fields of the model's own: the order in which the agents
move, the output trace, and the count of random answers used. -/
structure State where
  /-- V0..VF; VF is `v[15]` (R20, R21). -/
  v : Vector Byte 16
  /-- The index register `I` (R22). -/
  i : Word
  /-- The program counter, a physical address (R23). -/
  pc : Word
  /-- The call stack's entries, outside RAM (R24). -/
  stack : Vector Word 16
  /-- The number of entries in use, 0..16 (R24). -/
  sp : Fin 17
  /-- The opcode register: the last word fetched (R25). -/
  opcode : Word
  /-- The delay timer (R26). -/
  delay : Byte
  /-- The sound timer (R26). -/
  sound : Byte
  /-- RAM (R27), its font region included (R28). -/
  mem : Memory
  /-- The framebuffer (R29). -/
  fb : FrameBuffer
  /-- The key currently held, at most one (R30). -/
  pressed : Option Key
  /-- The single-slot record of the last key released (R30). -/
  typed : Option Key
  /-- The run state (R31). -/
  runState : RunState
  /-- Steps completed in the current batch (R32). -/
  batchCtr : Nat
  /-- The cancellation flag (R32). -/
  stopReq : Bool
  /-- The faulted condition: the model fault that ended the run, until a `Load` starts a new one (R202). -/
  faulted : Option Fault
  /-- MODEL'S OWN, DESIGN CHOICE: whose turn the next steps are, oldest first; when the list is empty the interpreter moves
  (log entry 4). -/
  turns : List Turn
  /-- MODEL'S OWN, DESIGN CHOICE: the output trace, the grids presented so far, newest first (R33, R224; log entry 5). -/
  presented : List FrameBuffer
  /-- MODEL'S OWN, DESIGN CHOICE: how many answers of the random source have been used (R226; log entry 3). -/
  randCtr : Nat
  deriving DecidableEq, Repr

/-- How a step, a meaning or the delivery of an event ends. -/
abbrev Result := Host.Outcome State Fault Refusal

/-- The state after reset, which is the power-on state (R34, R241); `mem` lists nothing, so RAM reads as its reset contents. -/
def State.reset : State where
  v := Vector.replicate 16 0
  i := 0
  pc := 0
  stack := Vector.replicate 16 0
  sp := 0
  opcode := 0
  delay := 0
  sound := 0
  mem := []
  fb := Vector.replicate 32 0
  pressed := none
  typed := none
  runState := .notRunning
  batchCtr := 0
  stopReq := false
  faulted := none
  turns := []
  presented := []
  randCtr := 0

end Sys2Proof.Machine
end

