-- ==== Sys2Proof/Machine/Memory.lean ====
section
/-! DEFINITION. RAM: its size, the font table, the bounds-checked byte accesses and their canonical form
(spec 10_state.md R27, R28, R34; 20_memory.md R51, R52). -/

namespace Sys2Proof.Machine

/-- `MEM_SIZE` (R6). -/
def memSize : Nat := 4096

/-- `FONT_BASE`, the physical address of glyph 0 (R6). -/
def fontBase : Nat := 0xFB0

/-- The five bytes of each glyph 0..F, row 0 first (R28). -/
def fontGlyphs : List (List Byte) :=
  [[0xF0, 0x90, 0x90, 0x90, 0xF0], [0x20, 0x60, 0x20, 0x20, 0x70],
   [0xF0, 0x10, 0xF0, 0x80, 0xF0], [0xF0, 0x10, 0xF0, 0x10, 0xF0]]
  ++ [[0x90, 0x90, 0xF0, 0x10, 0x10], [0xF0, 0x80, 0xF0, 0x10, 0xF0],
   [0xF0, 0x80, 0xF0, 0x90, 0xF0], [0xF0, 0x10, 0x20, 0x40, 0x40]]
  ++ [[0xF0, 0x90, 0xF0, 0x90, 0xF0], [0xF0, 0x90, 0xF0, 0x10, 0xF0],
   [0xF0, 0x90, 0xF0, 0x90, 0x90], [0xE0, 0x90, 0xE0, 0x90, 0xE0]]
  ++ [[0xF0, 0x80, 0x80, 0x80, 0xF0], [0xE0, 0x90, 0x90, 0x90, 0xE0],
   [0xF0, 0x80, 0xF0, 0x80, 0xF0], [0xF0, 0x80, 0xF0, 0x80, 0x80]]

/-- Byte `row` of glyph `g` (R28); 0 outside the table. -/
def fontByte (g row : Nat) : Byte := (fontGlyphs.getD g []).getD row 0

/-- What reset leaves at an address of RAM, and so what an unlisted address reads as: the font in the top 80 bytes, 0 below
(R34). -/
def resetByte (a : Nat) : Byte :=
  if fontBase ≤ a then fontByte ((a - fontBase) / 5) ((a - fontBase) % 5) else 0

/-- The byte listed for an address, if one is. -/
def lookupCell (a : Nat) : Memory → Option Byte
  | [] => none
  | c :: m => if c.1 = a then some c.2 else lookupCell a m

/-- `MemRead(a, 1)`: the byte at `a`, or 0 outside RAM; never a fault (R51). -/
def memRead (m : Memory) (a : Nat) : Byte :=
  if a < memSize then (lookupCell a m).getD (resetByte a) else 0

/-- The list without the cell of an address. -/
def eraseCell (a : Nat) (m : Memory) : Memory := m.filter (fun c => c.1 ≠ a)

/-- The list with a cell put before the first one of a higher address. -/
def insertCell (a : Nat) (b : Byte) : Memory → Memory
  | [] => [(a, b)]
  | c :: m => if a < c.1 then (a, b) :: c :: m else c :: insertCell a b m

/-- `MemWrite(a, 1, b)`: the byte at `a` becomes `b`; outside RAM the write is dropped (R52). Writing the reset byte takes the
cell out, so equal memories are equal lists. -/
def memWrite (m : Memory) (a : Nat) (b : Byte) : Memory :=
  if a < memSize then
    if b = resetByte a then eraseCell a m else insertCell a b (eraseCell a m)
  else m

/-- Write a byte sequence from an address upward, each byte bounds-checked on its own (R70, R242). -/
def memWriteBytes (m : Memory) (a : Nat) : List Byte → Memory
  | [] => m
  | b :: bs => memWriteBytes (memWrite m a b) (a + 1) bs

/-- Addresses rise strictly from `lo`, lie in RAM, and no cell holds the reset byte of its address. -/
def cellsWfFrom (lo : Nat) : Memory → Bool
  | [] => true
  | c :: m => decide (lo ≤ c.1) && decide (c.1 < memSize) && decide (c.2 ≠ resetByte c.1) && cellsWfFrom (c.1 + 1) m

/-- The canonical form of memory. -/
def memWf (m : Memory) : Bool := cellsWfFrom 0 m

end Sys2Proof.Machine
end

