-- ==== Sys2Proof/Machine/Operands.lean ====
section
/-! DEFINITION. Operand forms (spec 30_encoding.md R83): the translated address, the effective address, zero extension, and
the values that a decimal or a font operand names. -/

namespace Sys2Proof.Machine

/-- `BASE_OFFSET` (R6). -/
def baseOffset : Word := 0x200

/-- `nnn = (addr - 0x200) mod 65536`, the physical address of a 12-bit address field (R54, R83). -/
def translateAddr (addr : Addr) : Word := addr.setWidth 16 - baseOffset

/-- `I + k`: an effective address is a natural number and does not wrap (R53). -/
def effAddr (base : Word) (k : Nat) : Nat := base.toNat + k

/-- A byte as a 16-bit operand, zero-extended (R10). -/
def zext16 (b : Byte) : Word := b.setWidth 16

/-- A key as the byte a register holds (R192). -/
def keyByte (k : Key) : Byte := k.setWidth 8

/-- The register of a natural-number index, for V0..Vx transfers (R164, R165). -/
def regOfNat (k : Nat) : RegIx := BitVec.ofNat 4 k

/-- V0 and VF by name (R20, R21). -/
def regV0 : RegIx := 0x0
def regVF : RegIx := 0xF

/-- The hundreds digit of a byte (R163). -/
def bcdHundreds (b : Byte) : Byte := BitVec.ofNat 8 (b.toNat / 100)

/-- The tens digit of a byte (R163). -/
def bcdTens (b : Byte) : Byte := BitVec.ofNat 8 (b.toNat / 10 % 10)

/-- The ones digit of a byte (R163). -/
def bcdOnes (b : Byte) : Byte := BitVec.ofNat 8 (b.toNat % 10)

/-- `V[x] * 5 + FONT_BASE`, the address Fx29 forms; the value is not masked (R162). -/
def fontAddr (b : Byte) : Word := BitVec.ofNat 16 (fontBase + b.toNat * 5)

end Sys2Proof.Machine
end

