-- ==== Sys2Proof/Machine/Ops.lean ====
section
/-! DEFINITION. The named operations over registers, the program counter, the call stack, memory and the output, and the one
operation that raises a model fault (spec 60_exceptions.md R201). -/

namespace Sys2Proof.Machine

/-! ## General registers (R20) -/

/-- Read `V[x]`. -/
def getV (s : State) (x : RegIx) : Byte := s.v[x.toNat]'x.isLt

/-- Write `V[x]`. -/
def setV (s : State) (x : RegIx) (b : Byte) : State := { s with v := s.v.set x.toNat b x.isLt }

/-- Write the flag register VF (R21). -/
def setVF (s : State) (b : Byte) : State := setV s regVF b

/-! ## Address, control and timer registers -/

def setI (s : State) (a : Word) : State := { s with i := a }
def setPc (s : State) (a : Word) : State := { s with pc := a }
def setOpcode (s : State) (op : Word) : State := { s with opcode := op }
def setDelay (s : State) (b : Byte) : State := { s with delay := b }
def setSound (s : State) (b : Byte) : State := { s with sound := b }
def setMem (s : State) (m : Memory) : State := { s with mem := m }
def setFb (s : State) (f : FrameBuffer) : State := { s with fb := f }
def setPressed (s : State) (k : Option Key) : State := { s with pressed := k }
def setTyped (s : State) (k : Option Key) : State := { s with typed := k }
def setRunState (s : State) (r : RunState) : State := { s with runState := r }
def setTurns (s : State) (l : List Turn) : State := { s with turns := l }

/-- The default advance, `pc <- (pc + 2) mod 65536` (R103). -/
def advance (s : State) : State := setPc s (s.pc + 2)

/-- A skip: `pc` advances by 4 when the condition holds, else by 2; the skipped word is not examined (R103). -/
def skipIf (c : Bool) (s : State) : State := setPc s (if c then s.pc + 4 else s.pc + 2)

/-! ## The call stack (R24) -/

/-- Push, when fewer than 16 entries are in use. -/
def push (s : State) (w : Word) : Option State :=
  if h : s.sp.val < 16 then
    some { s with stack := s.stack.set s.sp.val w h, sp := ⟨s.sp.val + 1, by omega⟩ }
  else none

/-- Pop, when an entry is in use; the entry stays in the array. -/
def pop (s : State) : Option (Word × State) :=
  if h : 0 < s.sp.val then
    some (s.stack[s.sp.val - 1]'(by have := s.sp.isLt; omega), { s with sp := ⟨s.sp.val - 1, by have := s.sp.isLt; omega⟩ })
  else none

/-! ## Model faults -/

/-- Raise a model fault. It is the machine's substitute for taking an exception: the hardware has none, so nothing is saved, no
mode changes and control goes nowhere; the run is over (R200, R202). There is no return from it (R203). The step that meets the
fault records it (`recordFault`). -/
def raiseFault (f : Fault) : Result := .fault f

/-- Enter the faulted condition: the state stays as it is, `opcode` holding the fetched word (R201, R202). -/
def recordFault (f : Fault) (s : State) : State := { s with faulted := some f }

/-- Leave the faulted condition, as a `Load` does and nothing else (R202). -/
def clearFault (s : State) : State := { s with faulted := none }

/-- Whether a run loop is active: `Running`, and the run not over by a fault (R69, R202). -/
def loopActive (s : State) : Bool := decide (s.runState = .running) && s.faulted.isNone

/-! ## Memory -/

/-- `MemWrite` on the state (R52). -/
def storeByte (s : State) (a : Nat) (b : Byte) : State := setMem s (memWrite s.mem a b)

/-- Store `V[0] .. V[n-1]` at `base` upward (R164). -/
def storeRegs (s : State) (base : Word) : Nat → Memory
  | 0 => s.mem
  | n + 1 => memWrite (storeRegs s base n) (effAddr base n) (getV s (regOfNat n))

/-- Load `V[0] .. V[n-1]` from `base` upward (R165). -/
def loadRegs (s : State) (base : Word) : Nat → State
  | 0 => s
  | n + 1 => setV (loadRegs s base n) (regOfNat n) (memRead s.mem (effAddr base n))

/-! ## The keypad, from the interpreter's side -/

/-- `keyDown(v)`: whether `v`, all 8 bits of it, equals `pressed` (R221). -/
def keyIsDown (s : State) (b : Byte) : Bool :=
  match s.pressed with
  | none => false
  | some k => keyByte k == b

/-! ## Output and the random source -/

/-- `emit Present(fb)`: the grid as it is joins the output trace (R186, R224). -/
def present (s : State) : State := { s with presented := s.fb :: s.presented }

/-- The answer of the random source now (R226). -/
def randByte (s : State) : Byte := Config.randByte s.randCtr

/-- One answer of the random source is used up. -/
def useRand (s : State) : State := { s with randCtr := s.randCtr + 1 }

end Sys2Proof.Machine
end

