-- ==== Sys2Proof/Machine/Alu.lean ====
section
/-! DEFINITION. Register load, arithmetic, logic, shifts and the random byte (spec 42_register_alu.md R140 to R153). The flag is
written first; the result statement reads the registers as the flag write left them (R9). -/

namespace Sys2Proof.Machine

/-- 6xkk LD Vx, kk (R140). -/
def execLdImm (x : RegIx) (kk : Byte) (s : State) : Result := .next (advance (setV s x kk))

/-- 7xkk ADD Vx, kk (R141): mod 256, VF is not written. -/
def execAddImm (x : RegIx) (kk : Byte) (s : State) : Result := .next (advance (setV s x (getV s x + kk)))

/-- 8xy0 LD Vx, Vy (R142). -/
def execLdReg (x y : RegIx) (s : State) : Result := .next (advance (setV s x (getV s y)))

/-- 8xy1 OR Vx, Vy (R143). -/
def execOrReg (x y : RegIx) (s : State) : Result := .next (advance (setV s x (getV s x ||| getV s y)))

/-- 8xy2 AND Vx, Vy (R144). -/
def execAndReg (x y : RegIx) (s : State) : Result := .next (advance (setV s x (getV s x &&& getV s y)))

/-- 8xy3 XOR Vx, Vy (R145). -/
def execXorReg (x y : RegIx) (s : State) : Result := .next (advance (setV s x (getV s x ^^^ getV s y)))

/-- 8xy4 ADD Vx, Vy (R146): the sum is formed before VF is written. -/
def execAddReg (x y : RegIx) (s : State) : Result :=
  let sum := getV s x + getV s y
  let s1 := setVF s (carryFlag (getV s x) (getV s y))
  .next (advance (setV s1 x sum))

/-- 8xy5 SUB Vx, Vy (R147). -/
def execSubReg (x y : RegIx) (s : State) : Result :=
  let s1 := setVF s (notBorrowFlag (getV s x) (getV s y))
  .next (advance (setV s1 x (getV s1 x - getV s1 y)))

/-- 8xy6 SHR Vx (R148); `y` takes no part (R150). -/
def execShr (x _y : RegIx) (s : State) : Result :=
  let s1 := setVF s (bit0Flag (getV s x))
  .next (advance (setV s1 x (getV s1 x >>> 1)))

/-- 8xy7 SUBN Vx, Vy (R149). -/
def execSubnReg (x y : RegIx) (s : State) : Result :=
  let s1 := setVF s (notBorrowFlag (getV s y) (getV s x))
  .next (advance (setV s1 x (getV s1 y - getV s1 x)))

/-- 8xyE SHL Vx (R151): VF is bit 6; `y` takes no part (R150). -/
def execShl (x _y : RegIx) (s : State) : Result :=
  let s1 := setVF s (bit6Flag (getV s x))
  .next (advance (setV s1 x (getV s1 x <<< 1)))

/-- Cxkk RND Vx, kk (R152): a fresh random byte, masked. -/
def execRnd (x : RegIx) (kk : Byte) (s : State) : Result :=
  .next (advance (setV (useRand s) x (randByte s &&& kk)))

end Sys2Proof.Machine
end

