-- ==== Sys2Proof/Machine/Control.lean ====
section
/-! DEFINITION. The halt sentinel, the NOP placeholders and control transfer
(spec 40_fetch_dispatch.md R104, R105; 41_control_flow.md R120 to R127). -/

namespace Sys2Proof.Machine

/-- 0000 HALT (R104): the machine halts, `pc` keeps the address of the sentinel. -/
def execHalt (s : State) : Result := .next (setRunState s .halted)

/-- 00EE RET (R120): `pc` is the popped address as it stands. -/
def execRet (s : State) : Result :=
  match pop s with
  | none => raiseFault (.stackUnderflow s.pc)
  | some (a, s') => .next (setPc s' a)

/-- 1nnn JP addr (R121). -/
def execJp (addr : Addr) (s : State) : Result := .next (setPc s (translateAddr addr))

/-- 2nnn CALL addr (R122): push the address of the instruction after it, then jump. -/
def execCall (addr : Addr) (s : State) : Result :=
  match push s (s.pc + 2) with
  | none => raiseFault (.stackOverflow s.pc)
  | some s' => .next (setPc s' (translateAddr addr))

/-- 3xkk SE Vx, kk (R123). -/
def execSeImm (x : RegIx) (kk : Byte) (s : State) : Result := .next (skipIf (getV s x == kk) s)

/-- 4xkk SNE Vx, kk (R124). -/
def execSneImm (x : RegIx) (kk : Byte) (s : State) : Result := .next (skipIf (getV s x != kk) s)

/-- 5xy0 SE Vx, Vy (R125); the low nibble takes no part (R89). -/
def execSeReg (x y : RegIx) (_ignored : Nibble) (s : State) : Result := .next (skipIf (getV s x == getV s y) s)

/-- 9xy0 SNE Vx, Vy (R126); the low nibble takes no part (R89). -/
def execSneReg (x y : RegIx) (_ignored : Nibble) (s : State) : Result := .next (skipIf (getV s x != getV s y) s)

/-- Bnnn JP V0, addr (R127): the register is always V0, and the sum is formed after the translation. -/
def execJpV0 (addr : Addr) (s : State) : Result := .next (setPc s (translateAddr addr + zext16 (getV s regV0)))

/-! ## The 28 NOP placeholders (R105) -/

/-- A placeholder only advances `pc`. -/
def placeholder (s : State) : Result := .next (advance s)

/-- 00C1 NOP (R105). -/
def execNop00C1 (s : State) : Result := placeholder s

/-- 00C2 NOP (R105). -/
def execNop00C2 (s : State) : Result := placeholder s

/-- 00C3 NOP (R105). -/
def execNop00C3 (s : State) : Result := placeholder s

/-- 00C4 NOP (R105). -/
def execNop00C4 (s : State) : Result := placeholder s

/-- 00C5 NOP (R105). -/
def execNop00C5 (s : State) : Result := placeholder s

/-- 00C6 NOP (R105). -/
def execNop00C6 (s : State) : Result := placeholder s

/-- 00C7 NOP (R105). -/
def execNop00C7 (s : State) : Result := placeholder s

/-- 00C8 NOP (R105). -/
def execNop00C8 (s : State) : Result := placeholder s

/-- 00C9 NOP (R105). -/
def execNop00C9 (s : State) : Result := placeholder s

/-- 00CA NOP (R105). -/
def execNop00CA (s : State) : Result := placeholder s

/-- 00CB NOP (R105). -/
def execNop00CB (s : State) : Result := placeholder s

/-- 00CC NOP (R105). -/
def execNop00CC (s : State) : Result := placeholder s

/-- 00CD NOP (R105). -/
def execNop00CD (s : State) : Result := placeholder s

/-- 00CF NOP (R105). -/
def execNop00CF (s : State) : Result := placeholder s

/-- 00F1 NOP (R105). -/
def execNop00F1 (s : State) : Result := placeholder s

/-- 00F2 NOP (R105). -/
def execNop00F2 (s : State) : Result := placeholder s

/-- 00F3 NOP (R105). -/
def execNop00F3 (s : State) : Result := placeholder s

/-- 00F4 NOP (R105). -/
def execNop00F4 (s : State) : Result := placeholder s

/-- 00F5 NOP (R105). -/
def execNop00F5 (s : State) : Result := placeholder s

/-- 00F6 NOP (R105). -/
def execNop00F6 (s : State) : Result := placeholder s

/-- 00F7 NOP (R105). -/
def execNop00F7 (s : State) : Result := placeholder s

/-- 00F8 NOP (R105). -/
def execNop00F8 (s : State) : Result := placeholder s

/-- 00F9 NOP (R105). -/
def execNop00F9 (s : State) : Result := placeholder s

/-- 00FA NOP (R105). -/
def execNop00FA (s : State) : Result := placeholder s

/-- 00FB NOP (R105). -/
def execNop00FB (s : State) : Result := placeholder s

/-- 00FC NOP (R105). -/
def execNop00FC (s : State) : Result := placeholder s

/-- 00FD NOP (R105). -/
def execNop00FD (s : State) : Result := placeholder s

/-- 00FF NOP (R105). -/
def execNop00FF (s : State) : Result := placeholder s

end Sys2Proof.Machine
end

