-- ==== Sys2Proof/Machine/Display.lean ====
section
/-! DEFINITION. The framebuffer engine: pixel primitives, sprite layout, XOR-blit, and the meanings of CLS and DRW
(spec 44_display.md R180 to R186). -/

namespace Sys2Proof.Machine

/-- The clear framebuffer. -/
def fbClear : FrameBuffer := Vector.replicate 32 0

/-- `FbRead(px, py)`: the pixel, or 0 when a coordinate is out of range (R183). -/
def fbRead (f : FrameBuffer) (px py : Nat) : Bool :=
  if h : py < 32 then f[py].getLsbD px else false

/-- `FbXor(px, py)`: flip the pixel; nothing when a coordinate is out of range (R184). -/
def fbXor (f : FrameBuffer) (px py : Nat) : FrameBuffer :=
  if h : px < 64 ∧ py < 32 then f.set py (f[py] ^^^ BitVec.twoPow 64 px) h.2 else f

/-- The width of a sprite of height nibble `n` (R181). -/
def spriteWidth (n : Nibble) : Nat := if n = 0 then 16 else 8

/-- The height of a sprite of height nibble `n` (R181). -/
def spriteHeight (n : Nibble) : Nat := if n = 0 then 16 else n.toNat

/-- The address of the sprite byte that holds column `col` of row `row`: one byte a row, or two when `n` is 0 (R182). -/
def spriteAddr (base : Word) (n : Nibble) (row col : Nat) : Nat :=
  if n = 0 then effAddr base (2 * row + col / 8) else effAddr base row

/-- `SpriteBit(row, col)`: the most significant bit of a sprite byte is its leftmost column (R182). -/
def spriteBit (m : Memory) (base : Word) (n : Nibble) (row col : Nat) : Bool :=
  (memRead m (spriteAddr base n row col)).getLsbD (7 - col % 8)

/-- Draw one sprite bit at (px, py): a set bit tests the pixel for collision, then flips it; a clear bit does neither (R181). -/
def drawPixel (on : Bool) (px py : Nat) (a : FrameBuffer × Bool) : FrameBuffer × Bool :=
  if on then (fbXor a.1 px py, a.2 || fbRead a.1 px py) else a

/-- Draw the first `w` columns of a sprite row from (x0, py). -/
def drawRow (bit : Nat → Bool) (x0 py : Nat) : Nat → FrameBuffer × Bool → FrameBuffer × Bool
  | 0, a => a
  | w + 1, a => drawPixel (bit w) (x0 + w) py (drawRow bit x0 py w a)

/-- Draw the first `h` rows, each of `w` columns, of a sprite at (x0, y0); the Bool says whether a pixel was already 1. -/
def drawRows (bit : Nat → Nat → Bool) (x0 y0 w : Nat) : Nat → FrameBuffer × Bool → FrameBuffer × Bool
  | 0, a => a
  | h + 1, a => drawRow (bit h) x0 (y0 + h) w (drawRows bit x0 y0 w h a)

/-- The whole blit of a DRW on the framebuffer, with its collision (R181). -/
def drawSprite (m : Memory) (f : FrameBuffer) (base : Word) (n : Nibble) (x0 y0 : Nat) : FrameBuffer × Bool :=
  drawRows (spriteBit m base n) x0 y0 (spriteWidth n) (spriteHeight n) (f, false)

/-- 00E0 CLS (R180): every pixel 0, one `Present`, `pc` advances. -/
def execCls (s : State) : Result := .next (advance (present (setFb s fbClear)))

/-- Dxyn DRW Vx, Vy, n (R181): the position is latched before VF is cleared; VF is the collision; one `Present`. -/
def execDrw (x y : RegIx) (n : Nibble) (s : State) : Result :=
  let x0 := (getV s x).toNat
  let y0 := (getV s y).toNat
  let r := drawSprite s.mem s.fb s.i n x0 y0
  .next (advance (present (setFb (setVF s (flagByte r.2)) r.1)))

end Sys2Proof.Machine
end

