-- ==== Sys2Proof/Machine/Index.lean ====
section
/-! DEFINITION. The index register and memory transfer (spec 43_index_memory.md R160 to R166). Only Fx65 moves its base. -/

namespace Sys2Proof.Machine

/-- Annn LD I, addr (R160). -/
def execLdI (addr : Addr) (s : State) : Result := .next (advance (setI s (translateAddr addr)))

/-- Fx1E ADD I, Vx (R161): mod 65536, VF is not written. -/
def execAddI (x : RegIx) (s : State) : Result := .next (advance (setI s (s.i + zext16 (getV s x))))

/-- Fx29 LD F, Vx (R162). -/
def execLdF (x : RegIx) (s : State) : Result := .next (advance (setI s (fontAddr (getV s x))))

/-- Fx33 LD B, Vx (R163): hundreds, tens, ones, one digit a byte, each byte bounds-checked on its own. -/
def execLdB (x : RegIx) (s : State) : Result :=
  let b := getV s x
  let s1 := storeByte s (effAddr s.i 0) (bcdHundreds b)
  let s2 := storeByte s1 (effAddr s.i 1) (bcdTens b)
  let s3 := storeByte s2 (effAddr s.i 2) (bcdOnes b)
  .next (advance s3)

/-- Fx55 LD [I], Vx (R164): V0..Vx to memory; `I` stays. -/
def execLdMemVx (x : RegIx) (s : State) : Result := .next (advance (setMem s (storeRegs s s.i (x.toNat + 1))))

/-- Fx65 LD Vx, [I] (R165): V0..Vx from memory, then `I` moves past the bytes read. -/
def execLdVxMem (x : RegIx) (s : State) : Result :=
  let s1 := loadRegs s s.i (x.toNat + 1)
  .next (advance (setI s1 (s.i + BitVec.ofNat 16 (x.toNat + 1))))

end Sys2Proof.Machine
end

