-- ==== Sys2Proof/Machine/Keypad.lean ====
section
/-! DEFINITION. Keypad and timer instructions (spec 45_keypad_timers.md R190 to R196). -/

namespace Sys2Proof.Machine

/-- Ex9E SKP Vx (R190). -/
def execSkp (x : RegIx) (s : State) : Result := .next (skipIf (keyIsDown s (getV s x)) s)

/-- ExA1 SKNP Vx (R191). -/
def execSknp (x : RegIx) (s : State) : Result := .next (skipIf (!keyIsDown s (getV s x)) s)

/-- Fx07 LD Vx, DT (R193). -/
def execLdVxDt (x : RegIx) (s : State) : Result := .next (advance (setV s x s.delay))

/-- Fx0A LD Vx, K (R192): with a typed key, read and clear it in one action; with none, wait, writing nothing and leaving `pc`
at the instruction (R107). The step that waits is not a completed one (`keyWait`, R214). -/
def execLdVxK (x : RegIx) (s : State) : Result :=
  match s.typed with
  | none => .next s
  | some k => .next (advance (setV (setTyped s none) x (keyByte k)))

/-- Fx15 LD DT, Vx (R194). -/
def execLdDtVx (x : RegIx) (s : State) : Result := .next (advance (setDelay s (getV s x)))

/-- Fx18 LD ST, Vx (R195). -/
def execLdStVx (x : RegIx) (s : State) : Result := .next (advance (setSound s (getV s x)))

/-- Whether an instruction waits for a key in this state: Fx0A with `typed` empty (R192, R32). -/
def keyWait (i : Instr) (s : State) : Bool :=
  match i with
  | .ldVxK _ => s.typed.isNone
  | _ => false

end Sys2Proof.Machine
end

