-- ==== Sys2Proof/Machine/Dispatch.lean ====
section
/-! DEFINITION. One arm per constructor of `Instr`: the execute part of a step (spec 40_fetch_dispatch.md R101). -/

namespace Sys2Proof.Machine

def exec (i : Instr) (s : State) : Host.Outcome State Fault Refusal :=
  match i with
  | .halt => Sys2Proof.Machine.execHalt s
  | .cls => Sys2Proof.Machine.execCls s
  | .ret => Sys2Proof.Machine.execRet s
  | .nop00C1 => Sys2Proof.Machine.execNop00C1 s
  | .nop00C2 => Sys2Proof.Machine.execNop00C2 s
  | .nop00C3 => Sys2Proof.Machine.execNop00C3 s
  | .nop00C4 => Sys2Proof.Machine.execNop00C4 s
  | .nop00C5 => Sys2Proof.Machine.execNop00C5 s
  | .nop00C6 => Sys2Proof.Machine.execNop00C6 s
  | .nop00C7 => Sys2Proof.Machine.execNop00C7 s
  | .nop00C8 => Sys2Proof.Machine.execNop00C8 s
  | .nop00C9 => Sys2Proof.Machine.execNop00C9 s
  | .nop00CA => Sys2Proof.Machine.execNop00CA s
  | .nop00CB => Sys2Proof.Machine.execNop00CB s
  | .nop00CC => Sys2Proof.Machine.execNop00CC s
  | .nop00CD => Sys2Proof.Machine.execNop00CD s
  | .nop00CF => Sys2Proof.Machine.execNop00CF s
  | .nop00F1 => Sys2Proof.Machine.execNop00F1 s
  | .nop00F2 => Sys2Proof.Machine.execNop00F2 s
  | .nop00F3 => Sys2Proof.Machine.execNop00F3 s
  | .nop00F4 => Sys2Proof.Machine.execNop00F4 s
  | .nop00F5 => Sys2Proof.Machine.execNop00F5 s
  | .nop00F6 => Sys2Proof.Machine.execNop00F6 s
  | .nop00F7 => Sys2Proof.Machine.execNop00F7 s
  | .nop00F8 => Sys2Proof.Machine.execNop00F8 s
  | .nop00F9 => Sys2Proof.Machine.execNop00F9 s
  | .nop00FA => Sys2Proof.Machine.execNop00FA s
  | .nop00FB => Sys2Proof.Machine.execNop00FB s
  | .nop00FC => Sys2Proof.Machine.execNop00FC s
  | .nop00FD => Sys2Proof.Machine.execNop00FD s
  | .nop00FF => Sys2Proof.Machine.execNop00FF s
  | .jp a => Sys2Proof.Machine.execJp a s
  | .call a => Sys2Proof.Machine.execCall a s
  | .seImm x kk => Sys2Proof.Machine.execSeImm x kk s
  | .sneImm x kk => Sys2Proof.Machine.execSneImm x kk s
  | .seReg x y g => Sys2Proof.Machine.execSeReg x y g s
  | .ldImm x kk => Sys2Proof.Machine.execLdImm x kk s
  | .addImm x kk => Sys2Proof.Machine.execAddImm x kk s
  | .ldReg x y => Sys2Proof.Machine.execLdReg x y s
  | .orReg x y => Sys2Proof.Machine.execOrReg x y s
  | .andReg x y => Sys2Proof.Machine.execAndReg x y s
  | .xorReg x y => Sys2Proof.Machine.execXorReg x y s
  | .addReg x y => Sys2Proof.Machine.execAddReg x y s
  | .subReg x y => Sys2Proof.Machine.execSubReg x y s
  | .shr x y => Sys2Proof.Machine.execShr x y s
  | .subnReg x y => Sys2Proof.Machine.execSubnReg x y s
  | .shl x y => Sys2Proof.Machine.execShl x y s
  | .sneReg x y g => Sys2Proof.Machine.execSneReg x y g s
  | .ldI a => Sys2Proof.Machine.execLdI a s
  | .jpV0 a => Sys2Proof.Machine.execJpV0 a s
  | .rnd x kk => Sys2Proof.Machine.execRnd x kk s
  | .drw x y n => Sys2Proof.Machine.execDrw x y n s
  | .skp x => Sys2Proof.Machine.execSkp x s
  | .sknp x => Sys2Proof.Machine.execSknp x s
  | .ldVxDt x => Sys2Proof.Machine.execLdVxDt x s
  | .ldVxK x => Sys2Proof.Machine.execLdVxK x s
  | .ldDtVx x => Sys2Proof.Machine.execLdDtVx x s
  | .ldStVx x => Sys2Proof.Machine.execLdStVx x s
  | .addI x => Sys2Proof.Machine.execAddI x s
  | .ldF x => Sys2Proof.Machine.execLdF x s
  | .ldB x => Sys2Proof.Machine.execLdB x s
  | .ldMemVx x => Sys2Proof.Machine.execLdMemVx x s
  | .ldVxMem x => Sys2Proof.Machine.execLdVxMem x s

end Sys2Proof.Machine
end

