-- ==== Sys2Proof/WellFormed.lean ====
section
/-! DEFINITION. What is well formed. The operand types of `Instr` carry every bound an encoding has (a register index is a
nibble, an address field has 12 bits), so no `Instr` term lies outside the encoding; what can be ill formed is an opcode
word (spec 30_encoding.md R90), and what can be off the assembler's spelling is an ignored field (R89, R94). -/

namespace Sys2Proof

/-- The unmatched set of R90, as R90 lists it: a word whose family sub-dispatches and whose selector picks no row. -/
def opcodeUnmatched (op : Word) : Bool :=
  let family := op.toNat / 4096
  let kk := op.toNat % 256
  let n := op.toNat % 16
  if family = 0x0 then
    !(op.toNat = 0x0000 || op.toNat = 0x00E0 || op.toNat = 0x00EE
      || ((op.toNat / 16 = 0x00C || op.toNat / 16 = 0x00F) && n ≠ 0x0 && n ≠ 0xE))
  else if family = 0x8 then
    n = 0x8 || n = 0x9 || n = 0xA || n = 0xB || n = 0xC || n = 0xD || n = 0xF
  else if family = 0xE then
    !(kk = 0x9E || kk = 0xA1)
  else if family = 0xF then
    !(kk = 0x07 || kk = 0x0A || kk = 0x15 || kk = 0x18 || kk = 0x1E || kk = 0x29 || kk = 0x33 || kk = 0x55 || kk = 0x65)
  else false

/-- A word is well formed when some row of the opcode map applies to it (R96). -/
def opcodeWellFormed (op : Word) : Bool := !opcodeUnmatched op

/-- The canonical spelling of R89: the low nibble that SE and SNE between registers ignore is 0. Every other instruction is
canonical. -/
def Instr.canonical : Instr → Bool
  | .seReg _ _ ignored => ignored = 0
  | .sneReg _ _ ignored => ignored = 0
  | _ => true

end Sys2Proof
end

