-- ==== Sys2Proof/Decode.lean ====
section
/-! DEFINITION. The two-level decoder of spec 30_encoding.md R84 to R91, total on any word and any bytes, rejecting by name;
after it the encoder, written from the same encoding table (R82, R84). -/

namespace Sys2Proof

/-- Why a decoder gives no instruction. The first four are the unmatched sub-cases of R90, by family; the last is a byte
list with fewer than the two bytes of an opcode (R80). -/
inductive DecodeError where
  | unmatchedFamily0
  | unmatchedFamily8
  | unmatchedFamilyE
  | unmatchedFamilyF
  | truncated
  deriving DecidableEq, Repr

/-! ## Fields (R81) -/

/-- `op[15:12]`, the family. -/
def opFamily (op : Word) : BitVec 4 := op.extractLsb' 12 4

/-- `x = op[11:8]`. -/
def opX (op : Word) : RegIx := op.extractLsb' 8 4

/-- `y = op[7:4]`. -/
def opY (op : Word) : RegIx := op.extractLsb' 4 4

/-- `n = op[3:0]`. -/
def opN (op : Word) : Nibble := op.extractLsb' 0 4

/-- `kk = op[7:0]`. -/
def opKK (op : Word) : Byte := op.extractLsb' 0 8

/-- `addr = op[11:0]`, the logical address as the opcode spells it. -/
def opAddr (op : Word) : Addr := op.extractLsb' 0 12

/-! ## Decode -/

/-- Family 0x0 is decoded by the whole word (R85). -/
def decodeFamily0 (op : Word) : Except DecodeError Instr :=
  match op with
  | 0x0000#16 => .ok .halt
  | 0x00E0#16 => .ok .cls
  | 0x00EE#16 => .ok .ret
  | 0x00C1#16 => .ok .nop00C1
  | 0x00C2#16 => .ok .nop00C2
  | 0x00C3#16 => .ok .nop00C3
  | 0x00C4#16 => .ok .nop00C4
  | 0x00C5#16 => .ok .nop00C5
  | 0x00C6#16 => .ok .nop00C6
  | 0x00C7#16 => .ok .nop00C7
  | 0x00C8#16 => .ok .nop00C8
  | 0x00C9#16 => .ok .nop00C9
  | 0x00CA#16 => .ok .nop00CA
  | 0x00CB#16 => .ok .nop00CB
  | 0x00CC#16 => .ok .nop00CC
  | 0x00CD#16 => .ok .nop00CD
  | 0x00CF#16 => .ok .nop00CF
  | 0x00F1#16 => .ok .nop00F1
  | 0x00F2#16 => .ok .nop00F2
  | 0x00F3#16 => .ok .nop00F3
  | 0x00F4#16 => .ok .nop00F4
  | 0x00F5#16 => .ok .nop00F5
  | 0x00F6#16 => .ok .nop00F6
  | 0x00F7#16 => .ok .nop00F7
  | 0x00F8#16 => .ok .nop00F8
  | 0x00F9#16 => .ok .nop00F9
  | 0x00FA#16 => .ok .nop00FA
  | 0x00FB#16 => .ok .nop00FB
  | 0x00FC#16 => .ok .nop00FC
  | 0x00FD#16 => .ok .nop00FD
  | 0x00FF#16 => .ok .nop00FF
  | _ => .error .unmatchedFamily0

/-- Family 0x8 is decoded by the low nibble (R86). -/
def decodeFamily8 (op : Word) : Except DecodeError Instr :=
  match opN op with
  | 0x0#4 => .ok (.ldReg (opX op) (opY op))
  | 0x1#4 => .ok (.orReg (opX op) (opY op))
  | 0x2#4 => .ok (.andReg (opX op) (opY op))
  | 0x3#4 => .ok (.xorReg (opX op) (opY op))
  | 0x4#4 => .ok (.addReg (opX op) (opY op))
  | 0x5#4 => .ok (.subReg (opX op) (opY op))
  | 0x6#4 => .ok (.shr (opX op) (opY op))
  | 0x7#4 => .ok (.subnReg (opX op) (opY op))
  | 0xE#4 => .ok (.shl (opX op) (opY op))
  | _ => .error .unmatchedFamily8

/-- Family 0xE is decoded by the low byte (R87). -/
def decodeFamilyE (op : Word) : Except DecodeError Instr :=
  match opKK op with
  | 0x9E#8 => .ok (.skp (opX op))
  | 0xA1#8 => .ok (.sknp (opX op))
  | _ => .error .unmatchedFamilyE

/-- Family 0xF is decoded by the low byte (R88). -/
def decodeFamilyF (op : Word) : Except DecodeError Instr :=
  match opKK op with
  | 0x07#8 => .ok (.ldVxDt (opX op))
  | 0x0A#8 => .ok (.ldVxK (opX op))
  | 0x15#8 => .ok (.ldDtVx (opX op))
  | 0x18#8 => .ok (.ldStVx (opX op))
  | 0x1E#8 => .ok (.addI (opX op))
  | 0x29#8 => .ok (.ldF (opX op))
  | 0x33#8 => .ok (.ldB (opX op))
  | 0x55#8 => .ok (.ldMemVx (opX op))
  | 0x65#8 => .ok (.ldVxMem (opX op))
  | _ => .error .unmatchedFamilyF

/-- The first level of decode, on the family; families 0x1 to 0x7, 0x9 and 0xA to 0xD have no second level (R84, R89).
The last arm is family 0xF, the one value left. -/
def decodeWord (op : Word) : Except DecodeError Instr :=
  match opFamily op with
  | 0x0#4 => decodeFamily0 op
  | 0x1#4 => .ok (.jp (opAddr op))
  | 0x2#4 => .ok (.call (opAddr op))
  | 0x3#4 => .ok (.seImm (opX op) (opKK op))
  | 0x4#4 => .ok (.sneImm (opX op) (opKK op))
  | 0x5#4 => .ok (.seReg (opX op) (opY op) (opN op))
  | 0x6#4 => .ok (.ldImm (opX op) (opKK op))
  | 0x7#4 => .ok (.addImm (opX op) (opKK op))
  | 0x8#4 => decodeFamily8 op
  | 0x9#4 => .ok (.sneReg (opX op) (opY op) (opN op))
  | 0xA#4 => .ok (.ldI (opAddr op))
  | 0xB#4 => .ok (.jpV0 (opAddr op))
  | 0xC#4 => .ok (.rnd (opX op) (opKK op))
  | 0xD#4 => .ok (.drw (opX op) (opY op) (opN op))
  | 0xE#4 => decodeFamilyE op
  | _ => decodeFamilyF op

/-- An opcode from its two bytes, the byte at the lower address first and high (R55, R80). -/
def wordOfBytes (hi lo : Byte) : Word := hi ++ lo

/-- The high byte of a word, which stands at the lower address (R55). -/
def hiByte (w : Word) : Byte := w.extractLsb' 8 8

/-- The low byte of a word, which stands at the higher address (R55). -/
def loByte (w : Word) : Byte := w.extractLsb' 0 8

/-- The instruction at the head of a byte list, with the bytes after it (R80, R93: always two bytes). -/
def decodeBytes : List Byte → Except DecodeError (Instr × List Byte)
  | hi :: lo :: rest => (decodeWord (wordOfBytes hi lo)).map (fun i => (i, rest))
  | _ => .error .truncated

/-- The host's view of the decoder: the low `nbits` bits of `w` are the opcode (every row of the table has 16), laid out as the
hardware stores it, high byte first (R55), and given to `decodeBytes`. -/
def decodeTableWord (nbits w : Nat) : Option Instr :=
  let op : Word := BitVec.ofNat 16 (w % 2 ^ nbits)
  match decodeBytes [hiByte op, loByte op] with
  | .ok (i, _) => some i
  | .error _ => none

/-! ## Encode -/

/-- The opcode of an instruction, from the formats of R82 and the map of R84. -/
def encode : Instr → Word
  | .halt => 0x0000#16
  | .cls => 0x00E0#16
  | .ret => 0x00EE#16
  | .nop00C1 => 0x00C1#16
  | .nop00C2 => 0x00C2#16
  | .nop00C3 => 0x00C3#16
  | .nop00C4 => 0x00C4#16
  | .nop00C5 => 0x00C5#16
  | .nop00C6 => 0x00C6#16
  | .nop00C7 => 0x00C7#16
  | .nop00C8 => 0x00C8#16
  | .nop00C9 => 0x00C9#16
  | .nop00CA => 0x00CA#16
  | .nop00CB => 0x00CB#16
  | .nop00CC => 0x00CC#16
  | .nop00CD => 0x00CD#16
  | .nop00CF => 0x00CF#16
  | .nop00F1 => 0x00F1#16
  | .nop00F2 => 0x00F2#16
  | .nop00F3 => 0x00F3#16
  | .nop00F4 => 0x00F4#16
  | .nop00F5 => 0x00F5#16
  | .nop00F6 => 0x00F6#16
  | .nop00F7 => 0x00F7#16
  | .nop00F8 => 0x00F8#16
  | .nop00F9 => 0x00F9#16
  | .nop00FA => 0x00FA#16
  | .nop00FB => 0x00FB#16
  | .nop00FC => 0x00FC#16
  | .nop00FD => 0x00FD#16
  | .nop00FF => 0x00FF#16
  | .jp a => 0x1#4 ++ a
  | .call a => 0x2#4 ++ a
  | .seImm x kk => 0x3#4 ++ x ++ kk
  | .sneImm x kk => 0x4#4 ++ x ++ kk
  | .seReg x y n => 0x5#4 ++ x ++ y ++ n
  | .ldImm x kk => 0x6#4 ++ x ++ kk
  | .addImm x kk => 0x7#4 ++ x ++ kk
  | .ldReg x y => 0x8#4 ++ x ++ y ++ 0x0#4
  | .orReg x y => 0x8#4 ++ x ++ y ++ 0x1#4
  | .andReg x y => 0x8#4 ++ x ++ y ++ 0x2#4
  | .xorReg x y => 0x8#4 ++ x ++ y ++ 0x3#4
  | .addReg x y => 0x8#4 ++ x ++ y ++ 0x4#4
  | .subReg x y => 0x8#4 ++ x ++ y ++ 0x5#4
  | .shr x y => 0x8#4 ++ x ++ y ++ 0x6#4
  | .subnReg x y => 0x8#4 ++ x ++ y ++ 0x7#4
  | .shl x y => 0x8#4 ++ x ++ y ++ 0xE#4
  | .sneReg x y n => 0x9#4 ++ x ++ y ++ n
  | .ldI a => 0xA#4 ++ a
  | .jpV0 a => 0xB#4 ++ a
  | .rnd x kk => 0xC#4 ++ x ++ kk
  | .drw x y n => 0xD#4 ++ x ++ y ++ n
  | .skp x => 0xE#4 ++ x ++ 0x9E#8
  | .sknp x => 0xE#4 ++ x ++ 0xA1#8
  | .ldVxDt x => 0xF#4 ++ x ++ 0x07#8
  | .ldVxK x => 0xF#4 ++ x ++ 0x0A#8
  | .ldDtVx x => 0xF#4 ++ x ++ 0x15#8
  | .ldStVx x => 0xF#4 ++ x ++ 0x18#8
  | .addI x => 0xF#4 ++ x ++ 0x1E#8
  | .ldF x => 0xF#4 ++ x ++ 0x29#8
  | .ldB x => 0xF#4 ++ x ++ 0x33#8
  | .ldMemVx x => 0xF#4 ++ x ++ 0x55#8
  | .ldVxMem x => 0xF#4 ++ x ++ 0x65#8

/-- The two bytes of an instruction in the order the hardware stores them (R55). -/
def encodeBytes (i : Instr) : List Byte := [hiByte (encode i), loByte (encode i)]

end Sys2Proof
end

