-- ==== Sys2Proof/Machine/Events.lean ====
section
/-! DEFINITION. What the host and the UI layer can do to the machine: reset, load, run, stop and the key events
(spec 70_reset_and_hazards.md R240 to R246; 60_exceptions.md R218 to R220). -/

namespace Sys2Proof.Machine

/-- The fixed mapping from platform keys to logical keys; any other code is unmapped (R218). -/
def keyMap : PlatformKey → Option Key
  | .k1 => some 0x1
  | .k2 => some 0x2
  | .k3 => some 0x3
  | .k4 => some 0xC
  | .q => some 0x4
  | .w => some 0x5
  | .e => some 0x6
  | .r => some 0xD
  | .a => some 0x7
  | .s => some 0x8
  | .d => some 0x9
  | .f => some 0xE
  | .z => some 0xA
  | .x => some 0x0
  | .c => some 0xB
  | .v => some 0xF
  | .other _ => none

/-- `KeyDown(code)` (R219): a mapped key becomes the pressed one, whatever was pressed before. -/
def onKeyDown (code : PlatformKey) (s : State) : State :=
  match keyMap code with
  | none => s
  | some k => setPressed s (some k)

/-- `KeyUp(code)` (R220): when the key is the pressed one, it is released and becomes the typed one. -/
def onKeyUp (code : PlatformKey) (s : State) : State :=
  match keyMap code with
  | none => s
  | some k => if s.pressed = some k then setTyped (setPressed s none) (some k) else s

/-- `reset()` (R240): every element of the table of R34 at its reset value, the keypad kept. The faulted condition is no element of
that table and only a `Load` clears it (R202); the order of turns, the output trace and the random source are not the machine's to
reset (R33, R226). -/
def resetMachine (s : State) : State :=
  { State.reset with
    pressed := s.pressed
    typed := s.typed
    faulted := s.faulted
    turns := s.turns
    presented := s.presented
    randCtr := s.randCtr }

/-- The 80 bytes of the font table in order of address (R28). -/
def fontBytes : List Byte := fontGlyphs.flatten

/-- `Load(bytes)` when accepted (R242): reset, the font again, then the ROM from physical address 0, bounds-checked (R243). It starts
a new run, so it also clears the faulted condition (R202). -/
def loadRom (bytes : List Byte) (s : State) : State :=
  let s0 := clearFault (resetMachine s)
  setMem s0 (memWriteBytes (memWriteBytes s0.mem fontBase fontBytes) 0 bytes)

/-- `Run` (R245): acts in `NotRunning` only. -/
def onRun (s : State) : State :=
  match s.runState with
  | .notRunning => { s with runState := .running, batchCtr := 0, stopReq := false }
  | .running => s
  | .halted => s

/-- `Stop` (R246): acts in `Running` only. -/
def onStop (s : State) : State :=
  match s.runState with
  | .notRunning => s
  | .running => { s with stopReq := true }
  | .halted => s

/-- One event takes effect (R225). A load is accepted only when no run loop is active (R69), a run that ended in
a fault being over (R202). -/
def deliver (e : Event) (s : State) : Result :=
  match e with
  | .load bytes => if loopActive s then .refused .loadWhileRunning else .next (loadRom bytes s)
  | .loadFail => if loopActive s then .refused .loadWhileRunning else .next (resetMachine s)
  | .run => .next (onRun s)
  | .stop => .next (onStop s)
  | .keyDown code => .next (onKeyDown code s)
  | .keyUp code => .next (onKeyUp code s)

end Sys2Proof.Machine
end

