-- ==== Sys2Proof/Machine/Scheduler.lean ====
section
/-! DEFINITION. Fetch, and the Scheduler's part of a step: batches, timer decrements, the cooperative stop and the last
decrement (spec 40_fetch_dispatch.md R101; 60_exceptions.md R211 to R216). -/

namespace Sys2Proof.Machine

/-- The opcode at `pc`: two bytes, high byte first, each bounds-checked on its own (R55, R57, R101). -/
def fetchWord (s : State) : Word := wordOfBytes (memRead s.mem s.pc.toNat) (memRead s.mem (s.pc.toNat + 1))

/-- A timer after one decrement, floored at 0 (R212). -/
def decay (b : Byte) : Byte := if b = 0 then 0 else b - 1

/-- `TimerTick()`: both timers are decremented together (R212). -/
def timerTick (s : State) : State := { s with delay := decay s.delay, sound := decay s.sound }

/-- A timer after a decrement that happens when `c` holds. -/
def decayIf (c : Bool) (b : Byte) : Byte := if b = 0 then 0 else if c then b - 1 else b

/-- After a completed step in `Running` (R213): count it; when the batch is full, restart the count, tick the timers, then
honour a stop request. -/
def endOfStep (p : Params) (s : State) : State :=
  let full : Bool := decide (p.batch ≤ s.batchCtr + 1)
  { s with
    batchCtr := if full then 0 else s.batchCtr + 1
    delay := decayIf full s.delay
    sound := decayIf full s.sound
    runState := if s.stopReq && full then .notRunning else s.runState
    stopReq := s.stopReq && !full }

/-- After the step that halts (R216): one more tick, or none, as `FINAL_TICK` says. -/
def endOfRun (p : Params) (s : State) : State :=
  { s with delay := decayIf p.finalTick s.delay, sound := decayIf p.finalTick s.sound }

/-- What follows a step of the interpreter that did not wait. -/
def afterStep (p : Params) (s : State) : State :=
  match s.runState with
  | .halted => endOfRun p s
  | .running => endOfStep p s
  | .notRunning => s

end Sys2Proof.Machine
end

