-- ==== Sys2Proof/Machine/Interp.lean ====
section
/-! DEFINITION. One step of the whole machine: a turn of the interpreter with its scheduler, or the arrival of an event
(spec 40_fetch_dispatch.md R101, R107, R108; 60_exceptions.md R204, R206, R213, R227). -/

namespace Sys2Proof.Machine

/-- `step()` in `Running` (R101): fetch into `opcode`, decode, execute; then the Scheduler's part, unless the instruction waits
for a key (R214). An unmatched word is a model fault (R106). A fault leaves the state as it was before the step but for `opcode`, and
the machine in the faulted condition (R201, R202). -/
def interpreterStep (p : Params) (s : State) : Result :=
  let op := fetchWord s
  let s1 := setOpcode s op
  match decodeWord op with
  | .error _ => .next (recordFault (.unmatchedOpcode s.pc op) s1)
  | .ok i =>
    match exec i s1 with
    | .next s2 => .next (if keyWait i s1 then s2 else afterStep p s2)
    | .fault f => .next (recordFault f s1)
    | .refused r => .refused r

/-- The interpreter's turn: a step in `Running`; in `NotRunning` and `Halted` no step is taken (R100, R108). In the faulted condition
the run is over, and the turn answers the fault (R202). -/
def interpreterTurn (p : Params) (s : State) : Result :=
  match s.faulted with
  | some f => raiseFault f
  | none =>
    match s.runState with
    | .running => interpreterStep p s
    | .notRunning => .next s
    | .halted => .next s

/-- One move of the machine under the parameters `p`: the oldest turn that is due, or the interpreter's when none is. -/
def stepWith (p : Params) (s : State) : Result :=
  match s.turns with
  | [] => interpreterTurn p s
  | .interpreter :: rest => interpreterTurn p (setTurns s rest)
  | .event e :: rest => deliver e (setTurns s rest)

/-- The `pc` at which `placeWord` puts a word: the current one when both bytes lie in RAM, else 0. -/
def placePc (s : State) : Word := if s.pc.toNat + 1 < memSize then s.pc else 0

/-- The state with a word stored where the next step fetches, loaded and running, and the interpreter's turn due (log entry 12). -/
def placeWord (s : State) (op : Word) : State :=
  let a := (placePc s).toNat
  { s with
    pc := placePc s
    mem := memWrite (memWrite s.mem a (hiByte op)) (a + 1) (loByte op)
    runState := .running
    faulted := none
    turns := [] }

end Sys2Proof.Machine
end

