-- ==== Sys2Proof/Machine/Step.lean ====
section
/-! DEFINITION. The step of this machine, and the host's way to place one instruction. -/

namespace Sys2Proof.Machine

/-- One move of the machine, under its own (unknown) parameters. -/
def step (s : State) : Host.Outcome State Fault Refusal := stepWith Config.params s

/-- `s` with the instruction whose bits are the low `nbits` of `w` stored where `step` fetches next, so that the very next step
runs it. It stands for the host's `Load` and `Run` (log entry 12). -/
def State.withFetchWord (s : State) (nbits w : Nat) : State := placeWord s (BitVec.ofNat 16 (w % 2 ^ nbits))

end Sys2Proof.Machine
end

