-- ==== Sys2Proof/Safety.lean ====
section
/-! DEFINITION. What counts as a safe run, and the terms the claims use: what an instruction may write, which pixels a sprite
covers, whose turn is due, and the invariant of a state. -/

namespace Sys2Proof.Machine

/-! ## What an instruction may write (spec 00_scope.md R11, the closed-world reading of the table) -/

/-- The 14 placeholders 00Cn (R85). -/
def nopsC : List Instr :=
  [.nop00C1, .nop00C2, .nop00C3, .nop00C4, .nop00C5, .nop00C6, .nop00C7,
   .nop00C8, .nop00C9, .nop00CA, .nop00CB, .nop00CC, .nop00CD, .nop00CF]

/-- The 14 placeholders 00Fn (R85). -/
def nopsF : List Instr :=
  [.nop00F1, .nop00F2, .nop00F3, .nop00F4, .nop00F5, .nop00F6, .nop00F7,
   .nop00F8, .nop00F9, .nop00FA, .nop00FB, .nop00FC, .nop00FD, .nop00FF]

/-- The 28 NOP placeholders (R105). -/
def nopInstrs : List Instr := nopsC ++ nopsF

/-- V0 .. Vx (R164, R165). -/
def regsUpTo (x : RegIx) : List RegIx := (List.range (x.toNat + 1)).map regOfNat

/-- The general registers an instruction may write: its destination, and VF where its row names VF as a flag (R11, R21). -/
def writesV : Instr → List RegIx
  | .ldImm x _ => [x]
  | .addImm x _ => [x]
  | .ldReg x _ => [x]
  | .orReg x _ => [x]
  | .andReg x _ => [x]
  | .xorReg x _ => [x]
  | .rnd x _ => [x]
  | .ldVxDt x => [x]
  | .ldVxK x => [x]
  | .addReg x _ => [x, regVF]
  | .subReg x _ => [x, regVF]
  | .shr x _ => [x, regVF]
  | .subnReg x _ => [x, regVF]
  | .shl x _ => [x, regVF]
  | .drw _ _ _ => [regVF]
  | .ldVxMem x => regsUpTo x
  | _ => []

/-- The addresses an instruction stores to, computed as its meaning computes them (R163, R164). -/
def storeAddrs (i : Instr) (s : State) : List Nat :=
  match i with
  | .ldB _ => [effAddr s.i 0, effAddr s.i 1, effAddr s.i 2]
  | .ldMemVx x => (List.range (x.toNat + 1)).map (effAddr s.i)
  | _ => []

/-- The instructions that write `I` (R11, R22). -/
def writesI : Instr → Bool
  | .ldI _ => true
  | .addI _ => true
  | .ldF _ => true
  | .ldVxMem _ => true
  | _ => false

/-- The instructions that present the framebuffer, and the only ones that may write it (R185, R224). -/
def presents : Instr → Bool
  | .cls => true
  | .drw _ _ _ => true
  | _ => false

/-- The instructions that move the call stack (R24). -/
def usesStack : Instr → Bool
  | .call _ => true
  | .ret => true
  | _ => false

/-- `pc` moved on by `k`, mod 65536 (R103). -/
def pcMoved (s t : State) (k : Nat) : Prop := t.pc.toNat = (s.pc.toNat + k) % 65536

/-- `nnn` as a number: the 12-bit field less 0x200, mod 65536 (R54). -/
def physical (addr : Addr) : Nat := (addr.toNat + 65536 - 0x200) % 65536

/-! ## Sprites (R181) -/

/-- Whether a set bit of the sprite that `DRW Vx, Vy, n` draws in state `s` falls on pixel (px, py). -/
def spriteCovers (s : State) (x y : RegIx) (n : Nibble) (px py : Nat) : Bool :=
  let x0 := (getV s x).toNat
  let y0 := (getV s y).toNat
  decide (x0 ≤ px) && decide (px < x0 + spriteWidth n) && decide (y0 ≤ py) && decide (py < y0 + spriteHeight n)
    && spriteBit s.mem s.i n (py - y0) (px - x0)

/-! ## Turns, safety, the invariant -/

/-- The turn that is due: the oldest one listed, or the interpreter's. -/
def dueTurn (s : State) : Turn :=
  match s.turns with
  | [] => .interpreter
  | t :: _ => t

/-- The state as the agent whose turn is due meets it: the turn itself is used up. -/
def afterDue (s : State) : State := { s with turns := s.turns.tail }

/-- What a program must not do (R248): reach an unmatched word, call with 16 calls outstanding, or return with none. Said of the
word at `pc`, without the decoder. -/
def breachesDuty (s : State) : Bool :=
  opcodeUnmatched (fetchWord s)
    || (decide ((fetchWord s).toNat / 4096 = 2) && decide (s.sp.val = 16))
    || (decide ((fetchWord s).toNat = 0x00EE) && decide (s.sp.val = 0))

/-- The first `k` steps from `s` all answer a next state, and none of them enters the faulted condition. -/
def SafeRun (p : Params) : Nat → State → Prop
  | 0, _ => True
  | k + 1, s => ∃ t, stepWith p s = .next t ∧ t.faulted = none ∧ SafeRun p k t

/-- The invariant of a state: RAM is in canonical form, and fewer steps are counted than a batch holds (R32). -/
def State.Inv (p : Params) (s : State) : Prop := memWf s.mem = true ∧ s.batchCtr < p.batch

end Sys2Proof.Machine
end

