-- ==== Sys2Proof/Certificates/Slice0/Obligations.lean ====
section
/-! DEFINITION. The statements for the provers. Each docstring names the rules of spec/ it formalises, and, where it rests on a
decision of the spec's own or on a choice of the model, that decision or the log entry. -/

open Sys2Proof Sys2Proof.Machine

/-! ## Encoding -/

/-- R80 to R96: decode undoes encode, on words and on bytes, for every instruction and every operand value. Rests on the spec's
decisions D5 (family 0x0) and D6 (ignored low nibbles). -/
def Obligations.DecodeUndoesEncode : Prop :=
  (∀ i, decodeWord (encode i) = .ok i) ∧ (∀ i rest, decodeBytes (encodeBytes i ++ rest) = .ok (i, rest))

/-- R82, R84: a decoded instruction keeps every bit of its word, so no two words are one instruction. -/
def Obligations.EncodeUndoesDecode : Prop :=
  ∀ w i, decodeWord w = .ok i → encode i = w

/-- R90, R96: the decoder refuses exactly the unmatched set, by the name of its family. Rests on D4, D5. -/
def Obligations.DecoderRefusesExactlyTheUnmatched : Prop :=
  ∀ w : Word,
    ((∃ e, decodeWord w = .error e) ↔ opcodeUnmatched w = true)
    ∧ (decodeWord w = .error .unmatchedFamily0 → w.toNat / 4096 = 0x0)
    ∧ (decodeWord w = .error .unmatchedFamily8 → w.toNat / 4096 = 0x8)
    ∧ (decodeWord w = .error .unmatchedFamilyE → w.toNat / 4096 = 0xE)
    ∧ (decodeWord w = .error .unmatchedFamilyF → w.toNat / 4096 = 0xF)
    ∧ decodeWord w ≠ .error .truncated

/-- R84: a few words, spelled from the opcode map, decode to the instruction they stand for. -/
def Obligations.SampleWordsDecode : Prop :=
  decodeWord 0x0000 = .ok .halt ∧ decodeWord 0x00E0 = .ok .cls ∧ decodeWord 0x00FB = .ok .nop00FB
  ∧ decodeWord 0x2345 = .ok (.call 0x345) ∧ decodeWord 0x6A2B = .ok (.ldImm 0xA 0x2B)
  ∧ decodeWord 0x8125 = .ok (.subReg 0x1 0x2) ∧ decodeWord 0x9AB7 = .ok (.sneReg 0xA 0xB 0x7)
  ∧ decodeWord 0xD12F = .ok (.drw 0x1 0x2 0xF) ∧ decodeWord 0xE5A1 = .ok (.sknp 0x5) ∧ decodeWord 0xF365 = .ok (.ldVxMem 0x3)

/-! ## The step -/

/-- R101, R107, R213: in `Running`, when the interpreter's turn is due and the word at `pc` decodes to `i`, the step is `exec i` on
the state whose `opcode` holds the word; then, unless the instruction waits for a key, the Scheduler's part. Where `exec i` raises a
model fault, the step records it on that state (R201, R202; D24, log entry 32). `step` is `stepWith` at the machine's own parameters.
The turn order is the model's own (log entry 4), the atomic Scheduler's part log entry 28. -/
def Obligations.StepRunsTheDecodedInstruction : Prop :=
  (∀ s, step s = stepWith Config.params s)
  ∧ ∀ (p : Params) (s : State) (i : Instr), dueTurn s = .interpreter → s.faulted = none → s.runState = .running →
    decodeWord (fetchWord s) = .ok i → stepWith p s = match exec i (setOpcode (afterDue s) (fetchWord s)) with
      | .next t => .next (if keyWait i (setOpcode (afterDue s) (fetchWord s)) then t else afterStep p t)
      | .fault f => .next (recordFault f (setOpcode (afterDue s) (fetchWord s)))
      | .refused r => .refused r

/-- R100, R108, R202, R64, R206, R225: in `NotRunning` and `Halted` the interpreter's turn changes nothing; in the faulted condition it
answers the fault that ended the run; when an event is due, the whole step is that event taking effect. That turns are listed in the
state, and used up, is the model's own (log entries 4 and 6); the fault is the spec's decision D24 (log entry 32). -/
def Obligations.OtherTurnsIdleOrDeliver : Prop :=
  ∀ (p : Params) (s : State),
    (dueTurn s = .interpreter → s.faulted = none → s.runState ≠ .running → stepWith p s = .next (afterDue s))
    ∧ (∀ f, dueTurn s = .interpreter → s.faulted = some f → stepWith p s = .fault f)
    ∧ ∀ e : Event, dueTurn s = .event e → stepWith p s = deliver e (afterDue s)

/-- R55: the opcode is `MemRead(pc,1) * 256 + MemRead(pc+1,1)`, the two addresses natural numbers. `pc + 1` past 65535 rests on
D10. -/
def Obligations.FetchIsBigEndian : Prop :=
  ∀ s : State, (fetchWord s).toNat
    = (memRead s.mem s.pc.toNat).toNat * 256 + (memRead s.mem (s.pc.toNat + 1)).toNat

/-- R101, R55: a word placed by the host's hook is the word the very next step fetches, in `Running`, with the interpreter due
and no fault recorded (log entry 12). -/
def Obligations.PlacedWordIsFetchedNext : Prop :=
  ∀ (s : State) (w : Word),
    fetchWord (s.withFetchWord 16 w.toNat) = w ∧ (s.withFetchWord 16 w.toNat).runState = .running
    ∧ (s.withFetchWord 16 w.toNat).faulted = none ∧ dueTurn (s.withFetchWord 16 w.toNat) = .interpreter

/-! ## Memory -/

/-- R51, R52: an address outside RAM reads 0 and drops writes; inside, a write is read back and every other byte stays. -/
def Obligations.ReadsAndWritesAreBoundsChecked : Prop :=
  ∀ (m : Memory) (a a' : Nat) (b : Byte),
    (4096 ≤ a → memRead m a = 0 ∧ memWrite m a b = m)
    ∧ (a < 4096 → memRead (memWrite m a b) a = b)
    ∧ (a' ≠ a → memRead (memWrite m a b) a' = memRead m a')

/-- The invariant of every step: RAM stays in canonical form (log entry 13), and fewer steps are counted than a batch holds
(R32, R213). -/
def Obligations.EveryStepKeepsTheInvariant : Prop :=
  (∀ (p : Params) (s t : State), s.Inv p → stepWith p s = .next t → t.Inv p)
  ∧ (∀ s t : State, s.Inv Config.params → step s = .next t → t.Inv Config.params)

/-- The invariant holds at reset, whatever the parameters. -/
def Obligations.ResetMeetsTheInvariant : Prop :=
  ∀ p : Params, State.reset.Inv p

/-- R34, R28, R241: every element at reset, RAM through its reads: 0 below the font, and the 80 font bytes. The values of `stack`,
`batchCtr`, `stopReq`, `runState`, `pressed` and `typed` are the spec's decisions D14, D16, D17 (log entry 11); that no fault is
recorded is D24 (log entry 32); the last three fields are the model's own (log entries 3, 4, 5). -/
def Obligations.ResetLeavesTheStatedValues : Prop :=
  (∀ r, getV State.reset r = 0) ∧ State.reset.i = 0 ∧ State.reset.pc = 0 ∧ State.reset.sp = 0
  ∧ (∀ k : Fin 16, State.reset.stack[k] = 0) ∧ State.reset.opcode = 0 ∧ State.reset.delay = 0 ∧ State.reset.sound = 0
  ∧ (∀ px py, fbRead State.reset.fb px py = false) ∧ State.reset.pressed = none ∧ State.reset.typed = none
  ∧ State.reset.runState = .notRunning ∧ State.reset.batchCtr = 0 ∧ State.reset.stopReq = false ∧ State.reset.faulted = none
  ∧ (∀ a, a < 0xFB0 → memRead State.reset.mem a = 0)
  ∧ (List.range 40).map (fun k => memRead State.reset.mem (0xFB0 + k)) =
      [0xF0, 0x90, 0x90, 0x90, 0xF0, 0x20, 0x60, 0x20, 0x20, 0x70, 0xF0, 0x10, 0xF0, 0x80, 0xF0, 0xF0, 0x10, 0xF0, 0x10, 0xF0,
       0x90, 0x90, 0xF0, 0x10, 0x10, 0xF0, 0x80, 0xF0, 0x10, 0xF0, 0xF0, 0x80, 0xF0, 0x90, 0xF0, 0xF0, 0x10, 0x20, 0x40, 0x40]
  ∧ (List.range 40).map (fun k => memRead State.reset.mem (0xFD8 + k)) =
      [0xF0, 0x90, 0xF0, 0x90, 0xF0, 0xF0, 0x90, 0xF0, 0x10, 0xF0, 0xF0, 0x90, 0xF0, 0x90, 0x90, 0xE0, 0x90, 0xE0, 0x90, 0xE0,
       0xF0, 0x80, 0x80, 0x80, 0xF0, 0xE0, 0x90, 0x90, 0x90, 0xE0, 0xF0, 0x80, 0xF0, 0x80, 0xF0, 0xF0, 0x80, 0xF0, 0x80, 0x80]

/-! ## HALT, NOP, control transfer -/

/-- R104, R102: the word 0x0000 is HALT; it halts the machine and writes nothing else, and the whole step leaves `pc` at the
sentinel with `opcode` 0. In the whole step the timers may move by the Scheduler's last decrement, which R216 leaves open (D12, log
entry 2) and the model puts into the same step (log entry 28); the turn that is used up is the model's own (log entry 4). -/
def Obligations.HaltStopsTheMachine : Prop :=
  decodeWord 0x0000 = .ok .halt
  ∧ (∀ s : State, ∃ t, exec .halt s = .next t ∧ t.runState = .halted ∧ { t with runState := s.runState } = s)
  ∧ (∀ (p : Params) (s : State), dueTurn s = .interpreter → s.faulted = none → s.runState = .running → fetchWord s = 0x0000 →
      ∃ t, stepWith p s = .next t ∧ t.runState = .halted ∧ t.pc = s.pc ∧ t.opcode = 0
        ∧ t.delay = (if p.finalTick then (timerTick s).delay else s.delay)
        ∧ t.sound = (if p.finalTick then (timerTick s).sound else s.sound)
        ∧ { t with runState := s.runState, opcode := s.opcode, delay := s.delay, sound := s.sound } = afterDue s)

/-- R105: the 28 placeholder words are NOPs, and each NOP only advances `pc`. -/
def Obligations.PlaceholdersOnlyAdvance : Prop :=
  (nopInstrs.map encode =
    [0x00C1, 0x00C2, 0x00C3, 0x00C4, 0x00C5, 0x00C6, 0x00C7, 0x00C8, 0x00C9, 0x00CA, 0x00CB, 0x00CC, 0x00CD, 0x00CF,
     0x00F1, 0x00F2, 0x00F3, 0x00F4, 0x00F5, 0x00F6, 0x00F7, 0x00F8, 0x00F9, 0x00FA, 0x00FB, 0x00FC, 0x00FD, 0x00FF])
  ∧ (∀ i ∈ nopInstrs, decodeWord (encode i) = .ok i)
  ∧ ∀ i ∈ nopInstrs, ∀ s : State, ∃ t, exec i s = .next t ∧ pcMoved s t 2 ∧ { t with pc := s.pc } = s

/-- R120: RET with a call outstanding pops its address into `pc`, and the entry stays in the array; with none it is the fault
`StackUnderflow`, which rests on D3. -/
def Obligations.RetPopsTheReturnAddress : Prop :=
  (∀ s : State, 0 < s.sp.val → ∃ t, exec .ret s = .next t ∧ t.sp.val + 1 = s.sp.val
      ∧ (∀ h : t.sp.val < 16, t.pc = s.stack[t.sp.val]) ∧ { t with pc := s.pc, sp := s.sp } = s)
  ∧ (∀ s : State, s.sp.val = 0 → exec .ret s = .fault (.stackUnderflow s.pc))

/-- R122: CALL with fewer than 16 calls outstanding pushes `pc + 2` and jumps to the translated address; with 16 it is the fault
`StackOverflow`. Rests on D1 (the translation) and D3 (the fault). -/
def Obligations.CallPushesAndJumps : Prop :=
  (∀ (addr : Addr) (s : State) (h : s.sp.val < 16), ∃ t, exec (.call addr) s = .next t ∧ t.sp.val = s.sp.val + 1
      ∧ (t.stack[s.sp.val]).toNat = (s.pc.toNat + 2) % 65536
      ∧ (∀ k : Fin 16, k.val ≠ s.sp.val → t.stack[k] = s.stack[k])
      ∧ t.pc.toNat = physical addr ∧ { t with pc := s.pc, sp := s.sp, stack := s.stack } = s)
  ∧ (∀ (addr : Addr) (s : State), s.sp.val = 16 → exec (.call addr) s = .fault (.stackOverflow s.pc))

/-- R121, R127, R54: JP sets `pc` to the translated address, JP V0 to the translated address plus V0 mod 65536; neither changes
anything else. Rests on D1. -/
def Obligations.JumpsGoToTranslatedAddresses : Prop :=
  ∀ (addr : Addr) (s : State),
    (∃ t, exec (.jp addr) s = .next t ∧ t.pc.toNat = physical addr ∧ { t with pc := s.pc } = s)
    ∧ (∃ t, exec (.jpV0 addr) s = .next t ∧ t.pc.toNat = (physical addr + (getV s 0x0).toNat) % 65536
        ∧ { t with pc := s.pc } = s)

/-- R123, R124: SE and SNE with a byte skip by 4 or go on by 2, and change nothing but `pc`. -/
def Obligations.SkipsAgainstAByte : Prop :=
  ∀ (x : RegIx) (kk : Byte) (s : State),
    decodeWord (0x3#4 ++ x ++ kk) = .ok (.seImm x kk) ∧ decodeWord (0x4#4 ++ x ++ kk) = .ok (.sneImm x kk)
    ∧ (∃ t, exec (.seImm x kk) s = .next t ∧ (getV s x = kk → pcMoved s t 4) ∧ (getV s x ≠ kk → pcMoved s t 2)
        ∧ { t with pc := s.pc } = s)
    ∧ (∃ t, exec (.sneImm x kk) s = .next t ∧ (getV s x ≠ kk → pcMoved s t 4) ∧ (getV s x = kk → pcMoved s t 2)
        ∧ { t with pc := s.pc } = s)

/-- R125, R126: SE and SNE between registers, whatever the low nibble holds; that it is not examined rests on D6. -/
def Obligations.SkipsBetweenRegisters : Prop :=
  ∀ (x y : RegIx) (g : Nibble) (s : State),
    (∃ t, exec (.seReg x y g) s = .next t ∧ (getV s x = getV s y → pcMoved s t 4) ∧ (getV s x ≠ getV s y → pcMoved s t 2)
        ∧ { t with pc := s.pc } = s)
    ∧ (∃ t, exec (.sneReg x y g) s = .next t ∧ (getV s x ≠ getV s y → pcMoved s t 4) ∧ (getV s x = getV s y → pcMoved s t 2)
        ∧ { t with pc := s.pc } = s)

/-- R128 (b), from R120 and R122: after a call, a return from any state with the same call stack goes to the instruction after the
call, and leaves the stack as it was but for the entry above its top. -/
def Obligations.ReturnUndoesCall : Prop :=
  ∀ (addr : Addr) (s t u : State), exec (.call addr) s = .next t → u.sp = t.sp → u.stack = t.stack →
    ∃ z, exec .ret u = .next z ∧ z.pc.toNat = (s.pc.toNat + 2) % 65536 ∧ z.sp = s.sp
      ∧ ∀ k : Fin 16, k.val ≠ s.sp.val → z.stack[k] = s.stack[k]

/-! ## Register load, arithmetic, logic, shifts, random -/

/-- R140: LD Vx, kk. -/
def Obligations.LoadByteWritesTheRegister : Prop :=
  ∀ (x : RegIx) (kk : Byte) (s : State), decodeWord (0x6#4 ++ x ++ kk) = .ok (.ldImm x kk)
    ∧ ∃ t, exec (.ldImm x kk) s = .next t ∧ getV t x = kk ∧ (∀ r, r ≠ x → getV t r = getV s r) ∧ pcMoved s t 2
      ∧ { t with v := s.v, pc := s.pc } = s

/-- R141: ADD Vx, kk wraps mod 256 and records no carry: VF changes only as the destination. -/
def Obligations.AddByteWrapsWithoutCarry : Prop :=
  ∀ (x : RegIx) (kk : Byte) (s : State), decodeWord (0x7#4 ++ x ++ kk) = .ok (.addImm x kk)
    ∧ ∃ t, exec (.addImm x kk) s = .next t ∧ (getV t x).toNat = ((getV s x).toNat + kk.toNat) % 256
      ∧ (∀ r, r ≠ x → getV t r = getV s r) ∧ pcMoved s t 2 ∧ { t with v := s.v, pc := s.pc } = s

/-- R142 to R145: LD, OR, AND and XOR between registers, bit by bit; VF changes only as the destination. -/
def Obligations.RegisterLogicIsBitwise : Prop :=
  ∀ (x y : RegIx) (s : State),
    decodeWord (0x8#4 ++ x ++ y ++ 0x0#4) = .ok (.ldReg x y) ∧ decodeWord (0x8#4 ++ x ++ y ++ 0x1#4) = .ok (.orReg x y)
    ∧ decodeWord (0x8#4 ++ x ++ y ++ 0x2#4) = .ok (.andReg x y) ∧ decodeWord (0x8#4 ++ x ++ y ++ 0x3#4) = .ok (.xorReg x y)
    ∧ (∃ t, exec (.ldReg x y) s = .next t ∧ getV t x = getV s y
        ∧ (∀ r, r ≠ x → getV t r = getV s r) ∧ pcMoved s t 2 ∧ { t with v := s.v, pc := s.pc } = s)
    ∧ (∃ t, exec (.orReg x y) s = .next t
        ∧ (∀ k, (getV t x).getLsbD k = ((getV s x).getLsbD k || (getV s y).getLsbD k))
        ∧ (∀ r, r ≠ x → getV t r = getV s r) ∧ pcMoved s t 2 ∧ { t with v := s.v, pc := s.pc } = s)
    ∧ (∃ t, exec (.andReg x y) s = .next t
        ∧ (∀ k, (getV t x).getLsbD k = ((getV s x).getLsbD k && (getV s y).getLsbD k))
        ∧ (∀ r, r ≠ x → getV t r = getV s r) ∧ pcMoved s t 2 ∧ { t with v := s.v, pc := s.pc } = s)
    ∧ (∃ t, exec (.xorReg x y) s = .next t
        ∧ (∀ k, (getV t x).getLsbD k = ((getV s x).getLsbD k ^^ (getV s y).getLsbD k))
        ∧ (∀ r, r ≠ x → getV t r = getV s r) ∧ pcMoved s t 2 ∧ { t with v := s.v, pc := s.pc } = s)

/-- R146: ADD Vx, Vy. The sum is formed first; VF is the carry unless Vx is VF, which then keeps the sum. -/
def Obligations.AddRecordsTheCarry : Prop :=
  ∀ (x y : RegIx) (s : State), decodeWord (0x8#4 ++ x ++ y ++ 0x4#4) = .ok (.addReg x y)
    ∧ ∃ t, exec (.addReg x y) s = .next t
      ∧ (getV t x).toNat = ((getV s x).toNat + (getV s y).toNat) % 256
      ∧ (x ≠ 0xF → (getV t 0xF).toNat = if 255 < (getV s x).toNat + (getV s y).toNat then 1 else 0)
      ∧ (∀ r, r ≠ x → r ≠ 0xF → getV t r = getV s r) ∧ pcMoved s t 2 ∧ { t with v := s.v, pc := s.pc } = s

/-- R147: SUB Vx, Vy, every case of the two registers. The cases in which x or y is 0xF rest on the spec's decision D7. -/
def Obligations.SubRecordsNotBorrow : Prop :=
  ∀ (x y : RegIx) (s : State), ∃ t, exec (.subReg x y) s = .next t
    ∧ (let a := (getV s x).toNat
       let b := (getV s y).toNat
       let f := if b ≤ a then 1 else 0
       (x ≠ 0xF → (getV t 0xF).toNat = f)
       ∧ (x ≠ 0xF → y ≠ 0xF → (getV t x).toNat = (a + 256 - b) % 256)
       ∧ (x ≠ 0xF → y = 0xF → (getV t x).toNat = (a + 256 - f) % 256)
       ∧ (x = 0xF → y ≠ 0xF → (getV t 0xF).toNat = (f + 256 - b) % 256)
       ∧ (x = 0xF → y = 0xF → getV t 0xF = 0))
    ∧ (∀ r, r ≠ x → r ≠ 0xF → getV t r = getV s r) ∧ pcMoved s t 2 ∧ { t with v := s.v, pc := s.pc } = s

/-- R149: SUBN Vx, Vy, every case of the two registers. The cases in which x or y is 0xF rest on D7. -/
def Obligations.SubnRecordsNotBorrow : Prop :=
  ∀ (x y : RegIx) (s : State), ∃ t, exec (.subnReg x y) s = .next t
    ∧ (let a := (getV s x).toNat
       let b := (getV s y).toNat
       let f := if a ≤ b then 1 else 0
       (x ≠ 0xF → (getV t 0xF).toNat = f)
       ∧ (x ≠ 0xF → y ≠ 0xF → (getV t x).toNat = (b + 256 - a) % 256)
       ∧ (x ≠ 0xF → y = 0xF → (getV t x).toNat = (f + 256 - a) % 256)
       ∧ (x = 0xF → y ≠ 0xF → (getV t 0xF).toNat = (b + 256 - f) % 256)
       ∧ (x = 0xF → y = 0xF → getV t 0xF = 0))
    ∧ (∀ r, r ≠ x → r ≠ 0xF → getV t r = getV s r) ∧ pcMoved s t 2 ∧ { t with v := s.v, pc := s.pc } = s

/-- R148, R150: SHR halves Vx and keeps the bit shifted out in VF; `y` takes no part. The case x = 0xF rests on D7. -/
def Obligations.ShrKeepsBitZero : Prop :=
  ∀ (x y : RegIx) (s : State), ∃ t, exec (.shr x y) s = .next t
    ∧ (x ≠ 0xF → (getV t x).toNat = (getV s x).toNat / 2 ∧ (getV t 0xF).toNat = (getV s x).toNat % 2)
    ∧ (x = 0xF → getV t 0xF = 0)
    ∧ (∀ r, r ≠ x → r ≠ 0xF → getV t r = getV s r) ∧ pcMoved s t 2 ∧ { t with v := s.v, pc := s.pc } = s
    ∧ ∀ y', exec (.shr x y') s = .next t

/-- R151, R150: SHL doubles Vx mod 256 and records bit 6, not bit 7; `y` takes no part. The case x = 0xF rests on D7. -/
def Obligations.ShlRecordsBitSix : Prop :=
  ∀ (x y : RegIx) (s : State), ∃ t, exec (.shl x y) s = .next t
    ∧ (x ≠ 0xF → (getV t x).toNat = (getV s x).toNat * 2 % 256 ∧ (getV t 0xF).toNat = (getV s x).toNat / 64 % 2)
    ∧ (x = 0xF → (getV t 0xF).toNat = (getV s x).toNat / 64 % 2 * 2)
    ∧ (∀ r, r ≠ x → r ≠ 0xF → getV t r = getV s r) ∧ pcMoved s t 2 ∧ { t with v := s.v, pc := s.pc } = s
    ∧ ∀ y', exec (.shl x y') s = .next t

/-- R152, R226: RND writes the next answer of the random source masked by `kk`, so no bit outside `kk` is ever set, and uses one
answer. The answer is a free value (D19, log entry 3). -/
def Obligations.RandomByteIsMasked : Prop :=
  ∀ (x : RegIx) (kk : Byte) (s : State), ∃ t, exec (.rnd x kk) s = .next t
    ∧ (∀ k, (getV t x).getLsbD k = ((Config.randByte s.randCtr).getLsbD k && kk.getLsbD k))
    ∧ t.randCtr = s.randCtr + 1 ∧ (∀ r, r ≠ x → getV t r = getV s r) ∧ pcMoved s t 2
    ∧ { t with v := s.v, pc := s.pc, randCtr := s.randCtr } = s

/-! ## Index register and memory transfer -/

/-- R160, R161, R162: LD I, ADD I and LD F. Rests on D1 (mod 65536) and D27 (Vx is not masked in LD F). -/
def Obligations.IndexRegisterWrites : Prop :=
  (∀ (addr : Addr) (s : State), ∃ t, exec (.ldI addr) s = .next t ∧ t.i.toNat = physical addr ∧ pcMoved s t 2
      ∧ { t with i := s.i, pc := s.pc } = s)
  ∧ (∀ (x : RegIx) (s : State), ∃ t, exec (.addI x) s = .next t
      ∧ t.i.toNat = (s.i.toNat + (getV s x).toNat) % 65536 ∧ pcMoved s t 2 ∧ { t with i := s.i, pc := s.pc } = s)
  ∧ (∀ (x : RegIx) (s : State), ∃ t, exec (.ldF x) s = .next t
      ∧ t.i.toNat = (getV s x).toNat * 5 + 0xFB0 ∧ pcMoved s t 2 ∧ { t with i := s.i, pc := s.pc } = s)

/-- R163: LD B stores the three decimal digits at I, I+1, I+2, each byte bounds-checked on its own; every other byte, and
everything else, stays. That I+1 and I+2 do not wrap rests on D10. -/
def Obligations.BcdStoresThreeDigits : Prop :=
  ∀ (x : RegIx) (s : State), ∃ t, exec (.ldB x) s = .next t ∧ pcMoved s t 2 ∧ { t with mem := s.mem, pc := s.pc } = s
    ∧ ∀ a, (memRead t.mem a).toNat =
        if 4096 ≤ a then 0
        else if a = s.i.toNat then (getV s x).toNat / 100
        else if a = s.i.toNat + 1 then (getV s x).toNat / 10 % 10
        else if a = s.i.toNat + 2 then (getV s x).toNat % 10
        else (memRead s.mem a).toNat

/-- R164: LD [I], Vx stores V0..Vx from I upward and leaves `I`; every other byte, and everything else, stays. That the addresses
do not wrap rests on D10. -/
def Obligations.BlockStoreWritesV0ToVx : Prop :=
  ∀ (x : RegIx) (s : State), ∃ t, exec (.ldMemVx x) s = .next t ∧ pcMoved s t 2 ∧ { t with mem := s.mem, pc := s.pc } = s
    ∧ (∀ k : RegIx, k.toNat ≤ x.toNat → s.i.toNat + k.toNat < 4096 → memRead t.mem (s.i.toNat + k.toNat) = getV s k)
    ∧ (∀ a, a ∉ storeAddrs (.ldMemVx x) s → memRead t.mem a = memRead s.mem a)
    ∧ (∀ a, 4096 ≤ a → memRead t.mem a = 0)

/-- R165: LD Vx, [I] loads V0..Vx from I upward, 0 beyond RAM, leaves the registers above, and adds x+1 to `I` mod 65536. That the
addresses do not wrap rests on D10. -/
def Obligations.BlockLoadReadsV0ToVx : Prop :=
  ∀ (x : RegIx) (s : State), ∃ t, exec (.ldVxMem x) s = .next t
    ∧ (∀ k : RegIx, k.toNat ≤ x.toNat → getV t k = memRead s.mem (s.i.toNat + k.toNat))
    ∧ (∀ k : RegIx, x.toNat < k.toNat → getV t k = getV s k)
    ∧ t.i.toNat = (s.i.toNat + x.toNat + 1) % 65536 ∧ pcMoved s t 2 ∧ { t with v := s.v, i := s.i, pc := s.pc } = s

/-- R166: a block store inside RAM, then the block load at the same `I`, gives the registers back. -/
def Obligations.BlockStoreThenLoadRoundTrips : Prop :=
  ∀ (x : RegIx) (s : State), s.i.toNat + x.toNat < 4096 →
    ∃ t u, exec (.ldMemVx x) s = .next t ∧ exec (.ldVxMem x) t = .next u ∧ (∀ r, getV u r = getV s r) ∧ t.i = s.i
      ∧ u.i.toNat = s.i.toNat + x.toNat + 1

/-! ## Display -/

/-- R183, R184: the pixel primitives: out of range a pixel reads 0 and a flip does nothing; a flip changes one pixel. Rests on
D22. -/
def Obligations.PixelsAreBoundsChecked : Prop :=
  ∀ (f : FrameBuffer) (px py qx qy : Nat),
    (64 ≤ px ∨ 32 ≤ py → fbRead f px py = false ∧ fbXor f px py = f)
    ∧ (px < 64 → py < 32 → fbRead (fbXor f px py) px py = !fbRead f px py)
    ∧ ((qx, qy) ≠ (px, py) → fbRead (fbXor f px py) qx qy = fbRead f qx qy)

/-- R180: CLS clears every pixel, presents the clear grid once, and leaves VF and everything else. -/
def Obligations.ClearZeroesEveryPixel : Prop :=
  decodeWord 0x00E0 = .ok .cls
  ∧ ∀ s : State, ∃ t, exec .cls s = .next t ∧ (∀ px py, fbRead t.fb px py = false) ∧ t.presented = t.fb :: s.presented
    ∧ pcMoved s t 2 ∧ { t with fb := s.fb, presented := s.presented, pc := s.pc } = s

/-- R182: the sprite's layout. For n ≠ 0 one byte a row; for n = 0 two, 16 columns and 16 rows; bit 7 is the leftmost column.
Rests on D9 and D10. -/
def Obligations.SpriteLayout : Prop :=
  ∀ (m : Memory) (base : Word) (n : Nibble) (row col : Nat),
    (n ≠ 0 → spriteWidth n = 8 ∧ spriteHeight n = n.toNat
      ∧ (col < 8 → spriteBit m base n row col = (memRead m (base.toNat + row)).getLsbD (7 - col)))
    ∧ (n = 0 → spriteWidth n = 16 ∧ spriteHeight n = 16
      ∧ (col < 8 → spriteBit m base n row col = (memRead m (base.toNat + 2 * row)).getLsbD (7 - col))
      ∧ (8 ≤ col → col < 16 → spriteBit m base n row col = (memRead m (base.toNat + 2 * row + 1)).getLsbD (15 - col)))

/-- R181, R185 (b), (c), R186: DRW flips exactly the in-range pixels under the sprite's set bits, VF says whether one of them was
set, the result is presented once, and nothing else changes. Rests on D8 (the position is latched), D9 and D22. -/
def Obligations.DrawFlipsExactlyTheSprite : Prop :=
  ∀ (x y : RegIx) (n : Nibble) (s : State), ∃ t, exec (.drw x y n) s = .next t
    ∧ (∀ px py, px < 64 → py < 32 → fbRead t.fb px py = (fbRead s.fb px py ^^ spriteCovers s x y n px py))
    ∧ (getV t 0xF = 0 ∨ getV t 0xF = 1)
    ∧ (getV t 0xF = 1 ↔ ∃ px py, px < 64 ∧ py < 32 ∧ spriteCovers s x y n px py = true ∧ fbRead s.fb px py = true)
    ∧ (∀ r, r ≠ 0xF → getV t r = getV s r) ∧ t.presented = t.fb :: s.presented ∧ pcMoved s t 2
    ∧ { t with v := s.v, fb := s.fb, presented := s.presented, pc := s.pc } = s

/-- R185 (a), the double-XOR law: the same DRW twice restores the framebuffer, and the second leaves VF = 1 exactly when the sprite
has an in-range pixel that was 0 before the first. For x and y other than 0xF, since VF moves the second draw otherwise (D8). -/
def Obligations.DrawTwiceRestoresTheScreen : Prop :=
  ∀ (x y : RegIx) (n : Nibble) (s : State), x ≠ 0xF → y ≠ 0xF →
    ∃ t u, exec (.drw x y n) s = .next t ∧ exec (.drw x y n) t = .next u ∧ u.fb = s.fb
      ∧ (getV u 0xF = 1 ↔ ∃ px py, px < 64 ∧ py < 32 ∧ spriteCovers s x y n px py = true ∧ fbRead s.fb px py = false)

/-! ## Keypad and timer instructions -/

/-- R190, R191, R221: SKP skips when the pressed key equals all 8 bits of Vx, SKNP when it does not; nothing but `pc` changes. Rests
on D27 (no masking). -/
def Obligations.KeySkips : Prop :=
  ∀ (x : RegIx) (s : State),
    (∃ t, exec (.skp x) s = .next t
      ∧ ((∃ k, s.pressed = some k ∧ k.toNat = (getV s x).toNat) → pcMoved s t 4)
      ∧ ((∀ k, s.pressed = some k → k.toNat ≠ (getV s x).toNat) → pcMoved s t 2) ∧ { t with pc := s.pc } = s)
    ∧ (∃ t, exec (.sknp x) s = .next t
      ∧ ((∃ k, s.pressed = some k ∧ k.toNat = (getV s x).toNat) → pcMoved s t 2)
      ∧ ((∀ k, s.pressed = some k → k.toNat ≠ (getV s x).toNat) → pcMoved s t 4) ∧ { t with pc := s.pc } = s)

/-- R192, R222: with a typed key, LD Vx, K reads and clears it in one action, and leaves `pressed`. -/
def Obligations.KeyReadTakesTheTypedKey : Prop :=
  ∀ (x : RegIx) (s : State) (k : Key), s.typed = some k →
    ∃ t, exec (.ldVxK x) s = .next t ∧ (getV t x).toNat = k.toNat ∧ t.typed = none ∧ (∀ r, r ≠ x → getV t r = getV s r)
      ∧ pcMoved s t 2 ∧ { t with v := s.v, typed := s.typed, pc := s.pc } = s

/-- R192 (c), R107, R214: with no typed key the whole step only fetches: `pc` stays, no step is counted, no timer ticks, and the
stop request is not examined (log entry 7). -/
def Obligations.KeyWaitHoldsTheMachine : Prop :=
  ∀ (p : Params) (s : State) (x : RegIx), dueTurn s = .interpreter → s.faulted = none → s.runState = .running →
    decodeWord (fetchWord s) = .ok (.ldVxK x) → s.typed = none →
    stepWith p s = .next { afterDue s with opcode := fetchWord s }

/-- R193, R194, R195: the timer moves. -/
def Obligations.TimerMoves : Prop :=
  ∀ (x : RegIx) (s : State),
    decodeWord (0xF#4 ++ x ++ 0x07#8) = .ok (.ldVxDt x) ∧ decodeWord (0xF#4 ++ x ++ 0x15#8) = .ok (.ldDtVx x)
    ∧ decodeWord (0xF#4 ++ x ++ 0x18#8) = .ok (.ldStVx x)
    ∧ (∃ t, exec (.ldVxDt x) s = .next t ∧ getV t x = s.delay ∧ (∀ r, r ≠ x → getV t r = getV s r) ∧ pcMoved s t 2
        ∧ { t with v := s.v, pc := s.pc } = s)
    ∧ (∃ t, exec (.ldDtVx x) s = .next t ∧ t.delay = getV s x ∧ pcMoved s t 2 ∧ { t with delay := s.delay, pc := s.pc } = s)
    ∧ (∃ t, exec (.ldStVx x) s = .next t ∧ t.sound = getV s x ∧ pcMoved s t 2 ∧ { t with sound := s.sound, pc := s.pc } = s)

/-! ## Timers and the scheduler -/

/-- R212: `TimerTick` decrements both timers, each floored at 0, and changes nothing else; `k` ticks take `k` off. -/
def Obligations.TicksFloorAtZero : Prop :=
  ∀ s : State,
    (timerTick s).delay.toNat = s.delay.toNat - 1 ∧ (timerTick s).sound.toNat = s.sound.toNat - 1
    ∧ { timerTick s with delay := s.delay, sound := s.sound } = s
    ∧ ∀ k : Nat, (timerTick^[k] s).delay.toNat = s.delay.toNat - k ∧ (timerTick^[k] s).sound.toNat = s.sound.toNat - k

/-- R213, R216: after a completed step in `Running`, inside a batch only the count moves; the step that fills the batch restarts the
count, ticks once, and then honours a stop request; after the step that halts, one more tick or none, as `FINAL_TICK` says. Rests on
D11, D12 and D14; that it is part of the same step is log entry 28. -/
def Obligations.SchedulerTicksPerBatch : Prop :=
  ∀ (p : Params) (s : State),
    (s.runState = .running → s.batchCtr + 1 < p.batch → afterStep p s = { s with batchCtr := s.batchCtr + 1 })
    ∧ (s.runState = .running → s.batchCtr + 1 = p.batch → s.stopReq = false →
        afterStep p s = { timerTick s with batchCtr := 0 })
    ∧ (s.runState = .running → s.batchCtr + 1 = p.batch → s.stopReq = true →
        afterStep p s = { timerTick s with batchCtr := 0, runState := .notRunning, stopReq := false })
    ∧ (s.runState = .halted → p.finalTick = true → afterStep p s = timerTick s)
    ∧ (s.runState = .halted → p.finalTick = false → afterStep p s = s)

/-! ## Events of the boundary -/

/-- R219: a mapped key going down becomes the pressed one, in every run state; an unmapped code is no event. -/
def Obligations.KeyDownSetsPressed : Prop :=
  ∀ (code : PlatformKey) (s : State),
    (∀ k, keyMap code = some k → deliver (.keyDown code) s = .next { s with pressed := some k })
    ∧ (keyMap code = none → deliver (.keyDown code) s = .next s)

/-- R220: a key going up is typed when it is the pressed one, in every run state; otherwise nothing happens. -/
def Obligations.KeyUpMovesPressedToTyped : Prop :=
  ∀ (code : PlatformKey) (s : State),
    (∀ k, keyMap code = some k → s.pressed = some k →
      deliver (.keyUp code) s = .next { s with pressed := none, typed := some k })
    ∧ (∀ k, keyMap code = some k → s.pressed ≠ some k → deliver (.keyUp code) s = .next s)
    ∧ (keyMap code = none → deliver (.keyUp code) s = .next s)

/-- R223 (a), (b), (c), R254: one press and release is one typed key; a displaced key's release changes nothing, so that only the key
that displaced it is typed; a second release overwrites the first. -/
def Obligations.KeypadLaws : Prop :=
  ∀ (code₁ code₂ : PlatformKey) (k l : Key) (s : State), keyMap code₁ = some k → keyMap code₂ = some l → k ≠ l →
    (onKeyUp code₁ (onKeyDown code₁ s) = { s with pressed := none, typed := some k })
    ∧ (onKeyUp code₁ (onKeyDown code₂ (onKeyDown code₁ s)) = { s with pressed := some l })
    ∧ (onKeyUp code₂ (onKeyUp code₁ (onKeyDown code₂ (onKeyDown code₁ s))) = { s with pressed := none, typed := some l })
    ∧ (onKeyUp code₂ (onKeyDown code₂ (onKeyUp code₁ (onKeyDown code₁ s))) = { s with pressed := none, typed := some l })

/-- R218: the mapping of the 16 legends, which is a bijection onto the keys; every other code is unmapped. -/
def Obligations.KeyMapIsTheTable : Prop :=
  [PlatformKey.k1, .k2, .k3, .k4, .q, .w, .e, .r, .a, .s, .d, .f, .z, .x, .c, .v].map keyMap
    = [some 0x1, some 0x2, some 0x3, some 0xC, some 0x4, some 0x5, some 0x6, some 0xD,
       some 0x7, some 0x8, some 0x9, some 0xE, some 0xA, some 0x0, some 0xB, some 0xF]
  ∧ (∀ code, keyMap (.other code) = none)
  ∧ (∀ k : Key, ∃ code, keyMap code = some k)
  ∧ (∀ code₁ code₂ k, keyMap code₁ = some k → keyMap code₂ = some k → code₁ = code₂)

/-- R240, R242, R243, R244, R69: a load that is accepted resets everything but the keypad and copies the ROM from address 0, over
the font too, dropping what lies beyond RAM; a failed load only resets; against an active loop neither is accepted (log entry 10).
After a fault both are accepted, and the load alone clears the faulted condition (R202; D24, log entry 32). Rests on D15 and D18. -/
def Obligations.LoadResetsAndCopies : Prop :=
  ∀ (bytes : List Byte) (s : State),
    (s.runState ≠ .running ∨ s.faulted ≠ none →
      (∃ t, deliver (.load bytes) s = .next t
        ∧ (∀ a, memRead t.mem a = if a < bytes.length ∧ a < 4096 then bytes.getD a 0 else memRead State.reset.mem a)
        ∧ t = { State.reset with
                  mem := t.mem, pressed := s.pressed, typed := s.typed, turns := s.turns, presented := s.presented,
                  randCtr := s.randCtr })
      ∧ deliver .loadFail s = .next { State.reset with
                  pressed := s.pressed, typed := s.typed, faulted := s.faulted, turns := s.turns, presented := s.presented,
                  randCtr := s.randCtr })
    ∧ (s.runState = .running → s.faulted = none →
      deliver (.load bytes) s = .refused .loadWhileRunning ∧ deliver .loadFail s = .refused .loadWhileRunning)

/-- R245, R246, R100: `Run` acts in `NotRunning` only, `Stop` in `Running` only. Rests on D14. -/
def Obligations.RunAndStopActInOneState : Prop :=
  ∀ s : State,
    (s.runState = .notRunning →
      deliver .run s = .next { s with runState := .running, batchCtr := 0, stopReq := false } ∧ deliver .stop s = .next s)
    ∧ (s.runState = .running → deliver .run s = .next s ∧ deliver .stop s = .next { s with stopReq := true })
    ∧ (s.runState = .halted → deliver .run s = .next s ∧ deliver .stop s = .next s)

/-! ## Frames -/

/-- R11, R21: an instruction leaves every general register but those its row names, VF among them only where the row writes a
flag. -/
def Obligations.UnnamedRegistersStay : Prop :=
  ∀ (i : Instr) (s t : State) (r : RegIx), exec i s = .next t → r ∉ writesV i → getV t r = getV s r

/-- R11, R59, R163, R164: an instruction leaves every byte of memory outside the addresses it stores to; every instruction but LD B
and LD [I] stores to none. -/
def Obligations.UnstoredBytesStay : Prop :=
  ∀ (i : Instr) (s t : State) (a : Nat), exec i s = .next t → a ∉ storeAddrs i s → memRead t.mem a = memRead s.mem a

/-- R11: what instructions leave of everything else: `I`, the call stack, the framebuffer and the output, the timers, the keypad,
the run state, the scheduler's elements, `opcode`, the faulted condition, and the model's own fields. -/
def Obligations.UnnamedStateStays : Prop :=
  ∀ (i : Instr) (s t : State), exec i s = .next t →
    (writesI i = false → t.i = s.i)
    ∧ (usesStack i = false → t.sp = s.sp ∧ t.stack = s.stack)
    ∧ (presents i = false → t.fb = s.fb ∧ t.presented = s.presented)
    ∧ ((∀ x, i ≠ .ldDtVx x) → t.delay = s.delay)
    ∧ ((∀ x, i ≠ .ldStVx x) → t.sound = s.sound)
    ∧ ((∀ x, i ≠ .ldVxK x) → t.typed = s.typed)
    ∧ (i ≠ .halt → t.runState = s.runState)
    ∧ ((∀ x kk, i ≠ .rnd x kk) → t.randCtr = s.randCtr)
    ∧ t.pressed = s.pressed ∧ t.opcode = s.opcode ∧ t.batchCtr = s.batchCtr ∧ t.stopReq = s.stopReq
    ∧ t.faulted = s.faulted ∧ t.turns = s.turns

/-! ## Rules of the whole machine -/

/-- R201, R202, R204, R248: the machine enters the faulted condition exactly when the interpreter runs into a word that breaches the
program's duties; the fault names the `pc` (and the word), and the state is the one before the step but for `opcode`. The condition is
sticky: while it lasts the interpreter's turn answers the fault and nothing else does, and no event clears it except a load, which
always does. The faults are the spec's own (D3, D4, D24; log entries 8, 9); that the step records the fault and the turn after it
answers it is the model's (log entry 32). -/
def Obligations.FaultsAreExactlyTheBreaches : Prop :=
  (∀ (p : Params) (s : State), dueTurn s = .interpreter → s.faulted = none → s.runState = .running → breachesDuty s = true →
      ∃ f, stepWith p s = .next (recordFault f (setOpcode (afterDue s) (fetchWord s)))
        ∧ ((f = .unmatchedOpcode s.pc (fetchWord s) ∧ opcodeUnmatched (fetchWord s) = true)
          ∨ (f = .stackOverflow s.pc ∧ (fetchWord s).toNat / 4096 = 2 ∧ s.sp.val = 16)
          ∨ (f = .stackUnderflow s.pc ∧ (fetchWord s).toNat = 0x00EE ∧ s.sp.val = 0)))
  ∧ (∀ (p : Params) (s t : State), stepWith p s = .next t → s.faulted = none → t.faulted ≠ none →
      dueTurn s = .interpreter ∧ s.runState = .running ∧ breachesDuty s = true)
  ∧ (∀ (p : Params) (s : State) (f : Fault), stepWith p s = .fault f ↔ dueTurn s = .interpreter ∧ s.faulted = some f)
  ∧ (∀ (p : Params) (s t : State) (f : Fault), stepWith p s = .next t → s.faulted = some f →
      ((∃ bytes, dueTurn s = .event (.load bytes)) → t.faulted = none)
      ∧ ((∀ bytes, dueTurn s ≠ .event (.load bytes)) → t.faulted = some f))

/-- R69, R251, R106: the machine declines nothing but a load against an active loop: no instruction is refused (D15, log entry 10). -/
def Obligations.OnlyLoadsAreRefused : Prop :=
  (∀ (i : Instr) (s : State) (r : Refusal), exec i s ≠ .refused r)
  ∧ ∀ (p : Params) (s : State) (r : Refusal), stepWith p s = .refused r →
      r = .loadWhileRunning ∧ s.runState = .running ∧ s.faulted = none
      ∧ (dueTurn s = .event .loadFail ∨ ∃ bytes, dueTurn s = .event (.load bytes))

/-- R100, R102, R249: the run state changes in the four ways of the table and in no other; a load is accepted in `Halted` and after a
fault, which leaves the run state as it was (R202). Rests on D14 and D24 (log entries 25, 32). -/
def Obligations.RunStateChangesAsTabled : Prop :=
  ∀ (p : Params) (s t : State), stepWith p s = .next t → t.runState ≠ s.runState →
    (dueTurn s = .event .run ∧ s.runState = .notRunning ∧ t.runState = .running)
    ∨ ((dueTurn s = .event .loadFail ∨ ∃ bytes, dueTurn s = .event (.load bytes))
        ∧ (s.runState = .halted ∨ s.faulted ≠ none) ∧ t.runState = .notRunning)
    ∨ (dueTurn s = .interpreter ∧ s.faulted = none ∧ s.runState = .running ∧ fetchWord s = 0x0000 ∧ t.runState = .halted)
    ∨ (dueTurn s = .interpreter ∧ s.faulted = none ∧ s.runState = .running ∧ s.stopReq = true ∧ p.batch ≤ s.batchCtr + 1
        ∧ t.runState = .notRunning)

/-- R223 (d): `pressed` is set only by a key going down and cleared only by the matching key-up; `typed` is set only by the key-up of
the pressed key and cleared only by LD Vx, K. So neither is changed by a load, a run, a stop, a halt or any other instruction. -/
def Obligations.KeypadChangesOnlyByItsAgents : Prop :=
  ∀ (p : Params) (s t : State), stepWith p s = .next t →
    (∀ k, t.pressed = some k → s.pressed ≠ some k → ∃ code, dueTurn s = .event (.keyDown code) ∧ keyMap code = some k)
    ∧ (t.pressed = none → s.pressed ≠ none → ∃ code, dueTurn s = .event (.keyUp code) ∧ keyMap code = s.pressed)
    ∧ (∀ k, t.typed = some k → s.typed ≠ some k →
        ∃ code, dueTurn s = .event (.keyUp code) ∧ keyMap code = some k ∧ s.pressed = some k)
    ∧ (t.typed = none → s.typed ≠ none →
        dueTurn s = .interpreter ∧ s.runState = .running ∧ ∃ x, decodeWord (fetchWord s) = .ok (.ldVxK x))

/-- R59, R63: a byte of memory changes only by a load, or by an instruction that stores to it. -/
def Obligations.MemoryChangesOnlyByStores : Prop :=
  ∀ (p : Params) (s t : State) (a : Nat), stepWith p s = .next t → memRead t.mem a ≠ memRead s.mem a →
    a < 4096 ∧ ((dueTurn s = .event .loadFail ∨ ∃ bytes, dueTurn s = .event (.load bytes))
      ∨ (dueTurn s = .interpreter ∧ s.runState = .running ∧ ∃ i, decodeWord (fetchWord s) = .ok i ∧ a ∈ storeAddrs i s))

/-- R185 (d), R224: a step presents the framebuffer exactly when it runs CLS or DRW, once, as the instruction leaves it. -/
def Obligations.OutputIsOneGridPerDrawOrClear : Prop :=
  ∀ (p : Params) (s t : State), stepWith p s = .next t →
    (dueTurn s = .interpreter ∧ s.runState = .running ∧ (∃ i, decodeWord (fetchWord s) = .ok i ∧ presents i = true)
      → t.presented = t.fb :: s.presented)
    ∧ (¬(dueTurn s = .interpreter ∧ s.runState = .running ∧ ∃ i, decodeWord (fetchWord s) = .ok i ∧ presents i = true)
      → t.presented = s.presented)
end

