-- ==== Sys2Proof/Laws/Display.lean ====
section
/-! SUPPORT. The pixel primitives and the XOR-blit, stated pixel by pixel. -/

namespace Sys2Proof.Machine

theorem fbRead_outside (f : FrameBuffer) (px py : Nat) (h : 64 ≤ px ∨ 32 ≤ py) : fbRead f px py = false := by
  unfold fbRead
  split
  · exact BitVec.getLsbD_of_ge _ _ (by omega)
  · rfl

/-- A flip changes the one in-range pixel it names (R184). -/
theorem fbRead_fbXor (f : FrameBuffer) (px py qx qy : Nat) :
    fbRead (fbXor f px py) qx qy = (fbRead f qx qy ^^ (decide (px = qx) && decide (py = qy) && decide (px < 64) && decide (py < 32))) := by
  unfold fbXor
  split
  · next h =>
    unfold fbRead
    by_cases hq : qy < 32
    · simp only [hq, dif_pos, Vector.getElem_set]
      by_cases hy : py = qy
      · subst hy
        simp [BitVec.getLsbD_twoPow, h.1, h.2]
      · simp [hy]
    · have : ¬ py = qy := by omega
      simp [hq, this]
  · next h =>
    have : (decide (px < 64) && decide (py < 32)) = false := by simp; omega
    simp [Bool.and_assoc, this]

/-- What one sprite row does to every pixel, and when it collides. -/
theorem drawRow_spec (bit : Nat → Bool) (x0 py w : Nat) (a : FrameBuffer × Bool) (qx qy : Nat) :
    fbRead (drawRow bit x0 py w a).1 qx qy
      = (fbRead a.1 qx qy ^^ (decide (py = qy) && decide (x0 ≤ qx) && decide (qx < x0 + w) && bit (qx - x0)
          && decide (qx < 64) && decide (qy < 32))) := by
  induction w with
  | zero =>
    rcases Nat.lt_or_ge qx x0 with h | h
    · simp [drawRow, Nat.not_le.2 h]
    · simp [drawRow, Nat.not_lt.2 h]
  | succ w ih =>
    rw [drawRow, drawPixel]
    by_cases hx : qx = x0 + w
    · subst hx
      cases hb : bit w <;> simp [ih, fbRead_fbXor, hb]
      · by_cases hy : py = qy <;> simp [hy]
    · have h1 : decide (qx < x0 + (w + 1)) = decide (qx < x0 + w) := by simp; omega
      have h2 : decide (x0 + w = qx) = false := by simp; omega
      cases hb : bit w <;> (simp only [Bool.false_eq_true, if_false, if_true, ih, fbRead_fbXor, h1, h2]; try simp)

theorem drawRow_hit (bit : Nat → Bool) (x0 py w : Nat) (a : FrameBuffer × Bool) :
    (drawRow bit x0 py w a).2 = true
      ↔ a.2 = true ∨ ∃ col, col < w ∧ bit col = true ∧ fbRead a.1 (x0 + col) py = true := by
  induction w with
  | zero => simp [drawRow]
  | succ w ih =>
    rw [drawRow, drawPixel]
    have key : fbRead (drawRow bit x0 py w a).1 (x0 + w) py = fbRead a.1 (x0 + w) py := by
      rw [drawRow_spec]; simp
    by_cases hb : bit w = true
    · simp only [hb, if_true, Bool.or_eq_true, ih, key]
      constructor
      · rintro ((h | ⟨c, hc, h⟩) | h)
        · exact .inl h
        · exact .inr ⟨c, by omega, h⟩
        · exact .inr ⟨w, by omega, hb, h⟩
      · rintro (h | ⟨c, hc, h⟩)
        · exact .inl (.inl h)
        · by_cases hcw : c = w
          · subst hcw; exact .inr h.2
          · exact .inl (.inr ⟨c, by omega, h⟩)
    · simp only [hb, Bool.false_eq_true, if_false, ih]
      constructor
      · rintro (h | ⟨c, hc, h⟩)
        · exact .inl h
        · exact .inr ⟨c, by omega, h⟩
      · rintro (h | ⟨c, hc, h⟩)
        · exact .inl h
        · by_cases hcw : c = w
          · subst hcw; exact absurd h.1 hb
          · exact .inr ⟨c, by omega, h⟩

/-- What the rows of a sprite do to every pixel. -/
theorem drawRows_spec (bit : Nat → Nat → Bool) (x0 y0 w h : Nat) (a : FrameBuffer × Bool) (qx qy : Nat) :
    fbRead (drawRows bit x0 y0 w h a).1 qx qy
      = (fbRead a.1 qx qy ^^ (decide (x0 ≤ qx) && decide (qx < x0 + w) && decide (y0 ≤ qy) && decide (qy < y0 + h)
          && bit (qy - y0) (qx - x0) && decide (qx < 64) && decide (qy < 32))) := by
  induction h with
  | zero =>
    rcases Nat.lt_or_ge qy y0 with h | h
    · simp [drawRows, Nat.not_le.2 h]
    · simp [drawRows, Nat.not_lt.2 h]
  | succ h ih =>
    rw [drawRows, drawRow_spec, ih]
    by_cases hy : qy = y0 + h
    · subst hy; simp
    · have h1 : decide (qy < y0 + (h + 1)) = decide (qy < y0 + h) := by simp; omega
      have h2 : decide (y0 + h = qy) = false := by simp; omega
      simp [h1, h2]

/-- When the rows of a sprite collide: each row meets only pixels no earlier row has touched (R181 (a)). -/
theorem drawRows_hit (bit : Nat → Nat → Bool) (x0 y0 w h : Nat) (a : FrameBuffer × Bool) :
    (drawRows bit x0 y0 w h a).2 = true
      ↔ a.2 = true ∨ ∃ row col, row < h ∧ col < w ∧ bit row col = true ∧ fbRead a.1 (x0 + col) (y0 + row) = true := by
  induction h with
  | zero => simp [drawRows]
  | succ h ih =>
    rw [drawRows, drawRow_hit, ih]
    have key : ∀ col, fbRead (drawRows bit x0 y0 w h a).1 (x0 + col) (y0 + h) = fbRead a.1 (x0 + col) (y0 + h) := by
      intro col; rw [drawRows_spec]; simp
    simp only [key]
    constructor
    · rintro ((h1 | ⟨r, c, hr, h1⟩) | ⟨c, hc, h1⟩)
      · exact .inl h1
      · exact .inr ⟨r, c, by omega, h1⟩
      · exact .inr ⟨h, c, by omega, hc, h1⟩
    · rintro (h1 | ⟨r, c, hr, h1⟩)
      · exact .inl (.inl h1)
      · by_cases hrh : r = h
        · subst hrh; exact .inr ⟨c, h1.1, h1.2⟩
        · exact .inl (.inr ⟨r, c, by omega, h1⟩)

/-- Two framebuffers whose in-range pixels are equal are equal. -/
theorem fb_ext {f g : FrameBuffer} (h : ∀ px py, px < 64 → py < 32 → fbRead f px py = fbRead g px py) : f = g := by
  apply Vector.ext
  intro py hy
  apply BitVec.eq_of_getLsbD_eq
  intro px hx
  simpa [fbRead, hy] using h px py hx hy

end Sys2Proof.Machine
end

