-- ==== Sys2Proof/Laws/Encoding.lean ====
section
/-! SUPPORT. The opcode of each format as a number (spec 30_encoding.md R82), and the fields read back from it (R81). -/

namespace Sys2Proof

theorem toNat_append_eq {m k : Nat} (a : BitVec m) (b : BitVec k) : (a ++ b).toNat = a.toNat * 2 ^ k + b.toNat := by
  rw [BitVec.toNat_append, ← Nat.shiftLeft_add_eq_or_of_lt b.isLt, Nat.shiftLeft_eq]

/-- Format A: family, address. -/
theorem toNat_formatA (f : BitVec 4) (a : Addr) : (f ++ a : Word).toNat = f.toNat * 4096 + a.toNat := toNat_append_eq f a

/-- Formats XK and XS: family, register, byte. -/
theorem toNat_formatXK (f : BitVec 4) (x : RegIx) (kk : Byte) :
    (f ++ x ++ kk : Word).toNat = f.toNat * 4096 + x.toNat * 256 + kk.toNat := by
  rw [toNat_append_eq, toNat_append_eq]; omega

/-- Formats XY, XYS and XYN: family, two registers, nibble. -/
theorem toNat_formatXYN (f : BitVec 4) (x y : RegIx) (n : Nibble) :
    (f ++ x ++ y ++ n : Word).toNat = f.toNat * 4096 + x.toNat * 256 + y.toNat * 16 + n.toNat := by
  rw [toNat_append_eq, toNat_append_eq, toNat_append_eq]; omega

/-- A slice as a number (R7). -/
theorem toNat_slice (w : Word) (lo len : Nat) : (w.extractLsb' lo len).toNat = w.toNat / 2 ^ lo % 2 ^ len := by
  simp [BitVec.extractLsb'_toNat, Nat.shiftRight_eq_div_pow]

theorem toNat_opFamily (w : Word) : (opFamily w).toNat = w.toNat / 4096 := by
  have := w.isLt
  unfold opFamily; rw [toNat_slice]; omega
theorem toNat_opX (w : Word) : (opX w).toNat = w.toNat / 256 % 16 := by unfold opX; rw [toNat_slice]; norm_num
theorem toNat_opY (w : Word) : (opY w).toNat = w.toNat / 16 % 16 := by unfold opY; rw [toNat_slice]; norm_num
theorem toNat_opN (w : Word) : (opN w).toNat = w.toNat % 16 := by unfold opN; rw [toNat_slice]; simp
theorem toNat_opKK (w : Word) : (opKK w).toNat = w.toNat % 256 := by unfold opKK; rw [toNat_slice]; simp
theorem toNat_opAddr (w : Word) : (opAddr w).toNat = w.toNat % 4096 := by unfold opAddr; rw [toNat_slice]; simp

/-- The two bytes of a word put together again (R55). -/
theorem wordOfBytes_hi_lo (w : Word) : wordOfBytes (hiByte w) (loByte w) = w := by
  apply BitVec.eq_of_toNat_eq
  have h := toNat_append_eq (hiByte w) (loByte w)
  have h1 : (hiByte w).toNat = w.toNat / 256 % 256 := by unfold hiByte; rw [toNat_slice]; norm_num
  have h2 : (loByte w).toNat = w.toNat % 256 := by unfold loByte; rw [toNat_slice]; simp
  have := w.isLt
  unfold wordOfBytes
  rw [h, h1, h2]; omega

end Sys2Proof
end

