-- ==== Sys2Proof/Laws/State.lean ====
section
/-! SUPPORT. One lemma per field per named update of State, each true by rfl, so that no later proof unfolds a record update. -/

namespace Sys2Proof.Machine

/-! ## setV -/

@[simp] theorem setV_v (s : State) (x : RegIx) (b : Byte) : (setV s x b).v = s.v.set x.toNat b x.isLt := rfl
@[simp] theorem setV_i (s : State) (x : RegIx) (b : Byte) : (setV s x b).i = s.i := rfl
@[simp] theorem setV_pc (s : State) (x : RegIx) (b : Byte) : (setV s x b).pc = s.pc := rfl
@[simp] theorem setV_stack (s : State) (x : RegIx) (b : Byte) : (setV s x b).stack = s.stack := rfl
@[simp] theorem setV_sp (s : State) (x : RegIx) (b : Byte) : (setV s x b).sp = s.sp := rfl
@[simp] theorem setV_opcode (s : State) (x : RegIx) (b : Byte) : (setV s x b).opcode = s.opcode := rfl
@[simp] theorem setV_delay (s : State) (x : RegIx) (b : Byte) : (setV s x b).delay = s.delay := rfl
@[simp] theorem setV_sound (s : State) (x : RegIx) (b : Byte) : (setV s x b).sound = s.sound := rfl
@[simp] theorem setV_mem (s : State) (x : RegIx) (b : Byte) : (setV s x b).mem = s.mem := rfl
@[simp] theorem setV_fb (s : State) (x : RegIx) (b : Byte) : (setV s x b).fb = s.fb := rfl
@[simp] theorem setV_pressed (s : State) (x : RegIx) (b : Byte) : (setV s x b).pressed = s.pressed := rfl
@[simp] theorem setV_typed (s : State) (x : RegIx) (b : Byte) : (setV s x b).typed = s.typed := rfl
@[simp] theorem setV_runState (s : State) (x : RegIx) (b : Byte) : (setV s x b).runState = s.runState := rfl
@[simp] theorem setV_batchCtr (s : State) (x : RegIx) (b : Byte) : (setV s x b).batchCtr = s.batchCtr := rfl
@[simp] theorem setV_stopReq (s : State) (x : RegIx) (b : Byte) : (setV s x b).stopReq = s.stopReq := rfl
@[simp] theorem setV_faulted (s : State) (x : RegIx) (b : Byte) : (setV s x b).faulted = s.faulted := rfl
@[simp] theorem setV_turns (s : State) (x : RegIx) (b : Byte) : (setV s x b).turns = s.turns := rfl
@[simp] theorem setV_presented (s : State) (x : RegIx) (b : Byte) : (setV s x b).presented = s.presented := rfl
@[simp] theorem setV_randCtr (s : State) (x : RegIx) (b : Byte) : (setV s x b).randCtr = s.randCtr := rfl

/-! ## setVF -/

@[simp] theorem setVF_v (s : State) (b : Byte) : (setVF s b).v = s.v.set 15 b := rfl
@[simp] theorem setVF_i (s : State) (b : Byte) : (setVF s b).i = s.i := rfl
@[simp] theorem setVF_pc (s : State) (b : Byte) : (setVF s b).pc = s.pc := rfl
@[simp] theorem setVF_stack (s : State) (b : Byte) : (setVF s b).stack = s.stack := rfl
@[simp] theorem setVF_sp (s : State) (b : Byte) : (setVF s b).sp = s.sp := rfl
@[simp] theorem setVF_opcode (s : State) (b : Byte) : (setVF s b).opcode = s.opcode := rfl
@[simp] theorem setVF_delay (s : State) (b : Byte) : (setVF s b).delay = s.delay := rfl
@[simp] theorem setVF_sound (s : State) (b : Byte) : (setVF s b).sound = s.sound := rfl
@[simp] theorem setVF_mem (s : State) (b : Byte) : (setVF s b).mem = s.mem := rfl
@[simp] theorem setVF_fb (s : State) (b : Byte) : (setVF s b).fb = s.fb := rfl
@[simp] theorem setVF_pressed (s : State) (b : Byte) : (setVF s b).pressed = s.pressed := rfl
@[simp] theorem setVF_typed (s : State) (b : Byte) : (setVF s b).typed = s.typed := rfl
@[simp] theorem setVF_runState (s : State) (b : Byte) : (setVF s b).runState = s.runState := rfl
@[simp] theorem setVF_batchCtr (s : State) (b : Byte) : (setVF s b).batchCtr = s.batchCtr := rfl
@[simp] theorem setVF_stopReq (s : State) (b : Byte) : (setVF s b).stopReq = s.stopReq := rfl
@[simp] theorem setVF_faulted (s : State) (b : Byte) : (setVF s b).faulted = s.faulted := rfl
@[simp] theorem setVF_turns (s : State) (b : Byte) : (setVF s b).turns = s.turns := rfl
@[simp] theorem setVF_presented (s : State) (b : Byte) : (setVF s b).presented = s.presented := rfl
@[simp] theorem setVF_randCtr (s : State) (b : Byte) : (setVF s b).randCtr = s.randCtr := rfl

/-! ## setI -/

@[simp] theorem setI_v (s : State) (a : Word) : (setI s a).v = s.v := rfl
@[simp] theorem setI_i (s : State) (a : Word) : (setI s a).i = a := rfl
@[simp] theorem setI_pc (s : State) (a : Word) : (setI s a).pc = s.pc := rfl
@[simp] theorem setI_stack (s : State) (a : Word) : (setI s a).stack = s.stack := rfl
@[simp] theorem setI_sp (s : State) (a : Word) : (setI s a).sp = s.sp := rfl
@[simp] theorem setI_opcode (s : State) (a : Word) : (setI s a).opcode = s.opcode := rfl
@[simp] theorem setI_delay (s : State) (a : Word) : (setI s a).delay = s.delay := rfl
@[simp] theorem setI_sound (s : State) (a : Word) : (setI s a).sound = s.sound := rfl
@[simp] theorem setI_mem (s : State) (a : Word) : (setI s a).mem = s.mem := rfl
@[simp] theorem setI_fb (s : State) (a : Word) : (setI s a).fb = s.fb := rfl
@[simp] theorem setI_pressed (s : State) (a : Word) : (setI s a).pressed = s.pressed := rfl
@[simp] theorem setI_typed (s : State) (a : Word) : (setI s a).typed = s.typed := rfl
@[simp] theorem setI_runState (s : State) (a : Word) : (setI s a).runState = s.runState := rfl
@[simp] theorem setI_batchCtr (s : State) (a : Word) : (setI s a).batchCtr = s.batchCtr := rfl
@[simp] theorem setI_stopReq (s : State) (a : Word) : (setI s a).stopReq = s.stopReq := rfl
@[simp] theorem setI_faulted (s : State) (a : Word) : (setI s a).faulted = s.faulted := rfl
@[simp] theorem setI_turns (s : State) (a : Word) : (setI s a).turns = s.turns := rfl
@[simp] theorem setI_presented (s : State) (a : Word) : (setI s a).presented = s.presented := rfl
@[simp] theorem setI_randCtr (s : State) (a : Word) : (setI s a).randCtr = s.randCtr := rfl

/-! ## setPc -/

@[simp] theorem setPc_v (s : State) (a : Word) : (setPc s a).v = s.v := rfl
@[simp] theorem setPc_i (s : State) (a : Word) : (setPc s a).i = s.i := rfl
@[simp] theorem setPc_pc (s : State) (a : Word) : (setPc s a).pc = a := rfl
@[simp] theorem setPc_stack (s : State) (a : Word) : (setPc s a).stack = s.stack := rfl
@[simp] theorem setPc_sp (s : State) (a : Word) : (setPc s a).sp = s.sp := rfl
@[simp] theorem setPc_opcode (s : State) (a : Word) : (setPc s a).opcode = s.opcode := rfl
@[simp] theorem setPc_delay (s : State) (a : Word) : (setPc s a).delay = s.delay := rfl
@[simp] theorem setPc_sound (s : State) (a : Word) : (setPc s a).sound = s.sound := rfl
@[simp] theorem setPc_mem (s : State) (a : Word) : (setPc s a).mem = s.mem := rfl
@[simp] theorem setPc_fb (s : State) (a : Word) : (setPc s a).fb = s.fb := rfl
@[simp] theorem setPc_pressed (s : State) (a : Word) : (setPc s a).pressed = s.pressed := rfl
@[simp] theorem setPc_typed (s : State) (a : Word) : (setPc s a).typed = s.typed := rfl
@[simp] theorem setPc_runState (s : State) (a : Word) : (setPc s a).runState = s.runState := rfl
@[simp] theorem setPc_batchCtr (s : State) (a : Word) : (setPc s a).batchCtr = s.batchCtr := rfl
@[simp] theorem setPc_stopReq (s : State) (a : Word) : (setPc s a).stopReq = s.stopReq := rfl
@[simp] theorem setPc_faulted (s : State) (a : Word) : (setPc s a).faulted = s.faulted := rfl
@[simp] theorem setPc_turns (s : State) (a : Word) : (setPc s a).turns = s.turns := rfl
@[simp] theorem setPc_presented (s : State) (a : Word) : (setPc s a).presented = s.presented := rfl
@[simp] theorem setPc_randCtr (s : State) (a : Word) : (setPc s a).randCtr = s.randCtr := rfl

/-! ## setOpcode -/

@[simp] theorem setOpcode_v (s : State) (a : Word) : (setOpcode s a).v = s.v := rfl
@[simp] theorem setOpcode_i (s : State) (a : Word) : (setOpcode s a).i = s.i := rfl
@[simp] theorem setOpcode_pc (s : State) (a : Word) : (setOpcode s a).pc = s.pc := rfl
@[simp] theorem setOpcode_stack (s : State) (a : Word) : (setOpcode s a).stack = s.stack := rfl
@[simp] theorem setOpcode_sp (s : State) (a : Word) : (setOpcode s a).sp = s.sp := rfl
@[simp] theorem setOpcode_opcode (s : State) (a : Word) : (setOpcode s a).opcode = a := rfl
@[simp] theorem setOpcode_delay (s : State) (a : Word) : (setOpcode s a).delay = s.delay := rfl
@[simp] theorem setOpcode_sound (s : State) (a : Word) : (setOpcode s a).sound = s.sound := rfl
@[simp] theorem setOpcode_mem (s : State) (a : Word) : (setOpcode s a).mem = s.mem := rfl
@[simp] theorem setOpcode_fb (s : State) (a : Word) : (setOpcode s a).fb = s.fb := rfl
@[simp] theorem setOpcode_pressed (s : State) (a : Word) : (setOpcode s a).pressed = s.pressed := rfl
@[simp] theorem setOpcode_typed (s : State) (a : Word) : (setOpcode s a).typed = s.typed := rfl
@[simp] theorem setOpcode_runState (s : State) (a : Word) : (setOpcode s a).runState = s.runState := rfl
@[simp] theorem setOpcode_batchCtr (s : State) (a : Word) : (setOpcode s a).batchCtr = s.batchCtr := rfl
@[simp] theorem setOpcode_stopReq (s : State) (a : Word) : (setOpcode s a).stopReq = s.stopReq := rfl
@[simp] theorem setOpcode_faulted (s : State) (a : Word) : (setOpcode s a).faulted = s.faulted := rfl
@[simp] theorem setOpcode_turns (s : State) (a : Word) : (setOpcode s a).turns = s.turns := rfl
@[simp] theorem setOpcode_presented (s : State) (a : Word) : (setOpcode s a).presented = s.presented := rfl
@[simp] theorem setOpcode_randCtr (s : State) (a : Word) : (setOpcode s a).randCtr = s.randCtr := rfl

/-! ## setDelay -/

@[simp] theorem setDelay_v (s : State) (b : Byte) : (setDelay s b).v = s.v := rfl
@[simp] theorem setDelay_i (s : State) (b : Byte) : (setDelay s b).i = s.i := rfl
@[simp] theorem setDelay_pc (s : State) (b : Byte) : (setDelay s b).pc = s.pc := rfl
@[simp] theorem setDelay_stack (s : State) (b : Byte) : (setDelay s b).stack = s.stack := rfl
@[simp] theorem setDelay_sp (s : State) (b : Byte) : (setDelay s b).sp = s.sp := rfl
@[simp] theorem setDelay_opcode (s : State) (b : Byte) : (setDelay s b).opcode = s.opcode := rfl
@[simp] theorem setDelay_delay (s : State) (b : Byte) : (setDelay s b).delay = b := rfl
@[simp] theorem setDelay_sound (s : State) (b : Byte) : (setDelay s b).sound = s.sound := rfl
@[simp] theorem setDelay_mem (s : State) (b : Byte) : (setDelay s b).mem = s.mem := rfl
@[simp] theorem setDelay_fb (s : State) (b : Byte) : (setDelay s b).fb = s.fb := rfl
@[simp] theorem setDelay_pressed (s : State) (b : Byte) : (setDelay s b).pressed = s.pressed := rfl
@[simp] theorem setDelay_typed (s : State) (b : Byte) : (setDelay s b).typed = s.typed := rfl
@[simp] theorem setDelay_runState (s : State) (b : Byte) : (setDelay s b).runState = s.runState := rfl
@[simp] theorem setDelay_batchCtr (s : State) (b : Byte) : (setDelay s b).batchCtr = s.batchCtr := rfl
@[simp] theorem setDelay_stopReq (s : State) (b : Byte) : (setDelay s b).stopReq = s.stopReq := rfl
@[simp] theorem setDelay_faulted (s : State) (b : Byte) : (setDelay s b).faulted = s.faulted := rfl
@[simp] theorem setDelay_turns (s : State) (b : Byte) : (setDelay s b).turns = s.turns := rfl
@[simp] theorem setDelay_presented (s : State) (b : Byte) : (setDelay s b).presented = s.presented := rfl
@[simp] theorem setDelay_randCtr (s : State) (b : Byte) : (setDelay s b).randCtr = s.randCtr := rfl

/-! ## setSound -/

@[simp] theorem setSound_v (s : State) (b : Byte) : (setSound s b).v = s.v := rfl
@[simp] theorem setSound_i (s : State) (b : Byte) : (setSound s b).i = s.i := rfl
@[simp] theorem setSound_pc (s : State) (b : Byte) : (setSound s b).pc = s.pc := rfl
@[simp] theorem setSound_stack (s : State) (b : Byte) : (setSound s b).stack = s.stack := rfl
@[simp] theorem setSound_sp (s : State) (b : Byte) : (setSound s b).sp = s.sp := rfl
@[simp] theorem setSound_opcode (s : State) (b : Byte) : (setSound s b).opcode = s.opcode := rfl
@[simp] theorem setSound_delay (s : State) (b : Byte) : (setSound s b).delay = s.delay := rfl
@[simp] theorem setSound_sound (s : State) (b : Byte) : (setSound s b).sound = b := rfl
@[simp] theorem setSound_mem (s : State) (b : Byte) : (setSound s b).mem = s.mem := rfl
@[simp] theorem setSound_fb (s : State) (b : Byte) : (setSound s b).fb = s.fb := rfl
@[simp] theorem setSound_pressed (s : State) (b : Byte) : (setSound s b).pressed = s.pressed := rfl
@[simp] theorem setSound_typed (s : State) (b : Byte) : (setSound s b).typed = s.typed := rfl
@[simp] theorem setSound_runState (s : State) (b : Byte) : (setSound s b).runState = s.runState := rfl
@[simp] theorem setSound_batchCtr (s : State) (b : Byte) : (setSound s b).batchCtr = s.batchCtr := rfl
@[simp] theorem setSound_stopReq (s : State) (b : Byte) : (setSound s b).stopReq = s.stopReq := rfl
@[simp] theorem setSound_faulted (s : State) (b : Byte) : (setSound s b).faulted = s.faulted := rfl
@[simp] theorem setSound_turns (s : State) (b : Byte) : (setSound s b).turns = s.turns := rfl
@[simp] theorem setSound_presented (s : State) (b : Byte) : (setSound s b).presented = s.presented := rfl
@[simp] theorem setSound_randCtr (s : State) (b : Byte) : (setSound s b).randCtr = s.randCtr := rfl

/-! ## setMem -/

@[simp] theorem setMem_v (s : State) (m : Memory) : (setMem s m).v = s.v := rfl
@[simp] theorem setMem_i (s : State) (m : Memory) : (setMem s m).i = s.i := rfl
@[simp] theorem setMem_pc (s : State) (m : Memory) : (setMem s m).pc = s.pc := rfl
@[simp] theorem setMem_stack (s : State) (m : Memory) : (setMem s m).stack = s.stack := rfl
@[simp] theorem setMem_sp (s : State) (m : Memory) : (setMem s m).sp = s.sp := rfl
@[simp] theorem setMem_opcode (s : State) (m : Memory) : (setMem s m).opcode = s.opcode := rfl
@[simp] theorem setMem_delay (s : State) (m : Memory) : (setMem s m).delay = s.delay := rfl
@[simp] theorem setMem_sound (s : State) (m : Memory) : (setMem s m).sound = s.sound := rfl
@[simp] theorem setMem_mem (s : State) (m : Memory) : (setMem s m).mem = m := rfl
@[simp] theorem setMem_fb (s : State) (m : Memory) : (setMem s m).fb = s.fb := rfl
@[simp] theorem setMem_pressed (s : State) (m : Memory) : (setMem s m).pressed = s.pressed := rfl
@[simp] theorem setMem_typed (s : State) (m : Memory) : (setMem s m).typed = s.typed := rfl
@[simp] theorem setMem_runState (s : State) (m : Memory) : (setMem s m).runState = s.runState := rfl
@[simp] theorem setMem_batchCtr (s : State) (m : Memory) : (setMem s m).batchCtr = s.batchCtr := rfl
@[simp] theorem setMem_stopReq (s : State) (m : Memory) : (setMem s m).stopReq = s.stopReq := rfl
@[simp] theorem setMem_faulted (s : State) (m : Memory) : (setMem s m).faulted = s.faulted := rfl
@[simp] theorem setMem_turns (s : State) (m : Memory) : (setMem s m).turns = s.turns := rfl
@[simp] theorem setMem_presented (s : State) (m : Memory) : (setMem s m).presented = s.presented := rfl
@[simp] theorem setMem_randCtr (s : State) (m : Memory) : (setMem s m).randCtr = s.randCtr := rfl

/-! ## setFb -/

@[simp] theorem setFb_v (s : State) (f : FrameBuffer) : (setFb s f).v = s.v := rfl
@[simp] theorem setFb_i (s : State) (f : FrameBuffer) : (setFb s f).i = s.i := rfl
@[simp] theorem setFb_pc (s : State) (f : FrameBuffer) : (setFb s f).pc = s.pc := rfl
@[simp] theorem setFb_stack (s : State) (f : FrameBuffer) : (setFb s f).stack = s.stack := rfl
@[simp] theorem setFb_sp (s : State) (f : FrameBuffer) : (setFb s f).sp = s.sp := rfl
@[simp] theorem setFb_opcode (s : State) (f : FrameBuffer) : (setFb s f).opcode = s.opcode := rfl
@[simp] theorem setFb_delay (s : State) (f : FrameBuffer) : (setFb s f).delay = s.delay := rfl
@[simp] theorem setFb_sound (s : State) (f : FrameBuffer) : (setFb s f).sound = s.sound := rfl
@[simp] theorem setFb_mem (s : State) (f : FrameBuffer) : (setFb s f).mem = s.mem := rfl
@[simp] theorem setFb_fb (s : State) (f : FrameBuffer) : (setFb s f).fb = f := rfl
@[simp] theorem setFb_pressed (s : State) (f : FrameBuffer) : (setFb s f).pressed = s.pressed := rfl
@[simp] theorem setFb_typed (s : State) (f : FrameBuffer) : (setFb s f).typed = s.typed := rfl
@[simp] theorem setFb_runState (s : State) (f : FrameBuffer) : (setFb s f).runState = s.runState := rfl
@[simp] theorem setFb_batchCtr (s : State) (f : FrameBuffer) : (setFb s f).batchCtr = s.batchCtr := rfl
@[simp] theorem setFb_stopReq (s : State) (f : FrameBuffer) : (setFb s f).stopReq = s.stopReq := rfl
@[simp] theorem setFb_faulted (s : State) (f : FrameBuffer) : (setFb s f).faulted = s.faulted := rfl
@[simp] theorem setFb_turns (s : State) (f : FrameBuffer) : (setFb s f).turns = s.turns := rfl
@[simp] theorem setFb_presented (s : State) (f : FrameBuffer) : (setFb s f).presented = s.presented := rfl
@[simp] theorem setFb_randCtr (s : State) (f : FrameBuffer) : (setFb s f).randCtr = s.randCtr := rfl

/-! ## setPressed -/

@[simp] theorem setPressed_v (s : State) (k : Option Key) : (setPressed s k).v = s.v := rfl
@[simp] theorem setPressed_i (s : State) (k : Option Key) : (setPressed s k).i = s.i := rfl
@[simp] theorem setPressed_pc (s : State) (k : Option Key) : (setPressed s k).pc = s.pc := rfl
@[simp] theorem setPressed_stack (s : State) (k : Option Key) : (setPressed s k).stack = s.stack := rfl
@[simp] theorem setPressed_sp (s : State) (k : Option Key) : (setPressed s k).sp = s.sp := rfl
@[simp] theorem setPressed_opcode (s : State) (k : Option Key) : (setPressed s k).opcode = s.opcode := rfl
@[simp] theorem setPressed_delay (s : State) (k : Option Key) : (setPressed s k).delay = s.delay := rfl
@[simp] theorem setPressed_sound (s : State) (k : Option Key) : (setPressed s k).sound = s.sound := rfl
@[simp] theorem setPressed_mem (s : State) (k : Option Key) : (setPressed s k).mem = s.mem := rfl
@[simp] theorem setPressed_fb (s : State) (k : Option Key) : (setPressed s k).fb = s.fb := rfl
@[simp] theorem setPressed_pressed (s : State) (k : Option Key) : (setPressed s k).pressed = k := rfl
@[simp] theorem setPressed_typed (s : State) (k : Option Key) : (setPressed s k).typed = s.typed := rfl
@[simp] theorem setPressed_runState (s : State) (k : Option Key) : (setPressed s k).runState = s.runState := rfl
@[simp] theorem setPressed_batchCtr (s : State) (k : Option Key) : (setPressed s k).batchCtr = s.batchCtr := rfl
@[simp] theorem setPressed_stopReq (s : State) (k : Option Key) : (setPressed s k).stopReq = s.stopReq := rfl
@[simp] theorem setPressed_faulted (s : State) (k : Option Key) : (setPressed s k).faulted = s.faulted := rfl
@[simp] theorem setPressed_turns (s : State) (k : Option Key) : (setPressed s k).turns = s.turns := rfl
@[simp] theorem setPressed_presented (s : State) (k : Option Key) : (setPressed s k).presented = s.presented := rfl
@[simp] theorem setPressed_randCtr (s : State) (k : Option Key) : (setPressed s k).randCtr = s.randCtr := rfl

/-! ## setTyped -/

@[simp] theorem setTyped_v (s : State) (k : Option Key) : (setTyped s k).v = s.v := rfl
@[simp] theorem setTyped_i (s : State) (k : Option Key) : (setTyped s k).i = s.i := rfl
@[simp] theorem setTyped_pc (s : State) (k : Option Key) : (setTyped s k).pc = s.pc := rfl
@[simp] theorem setTyped_stack (s : State) (k : Option Key) : (setTyped s k).stack = s.stack := rfl
@[simp] theorem setTyped_sp (s : State) (k : Option Key) : (setTyped s k).sp = s.sp := rfl
@[simp] theorem setTyped_opcode (s : State) (k : Option Key) : (setTyped s k).opcode = s.opcode := rfl
@[simp] theorem setTyped_delay (s : State) (k : Option Key) : (setTyped s k).delay = s.delay := rfl
@[simp] theorem setTyped_sound (s : State) (k : Option Key) : (setTyped s k).sound = s.sound := rfl
@[simp] theorem setTyped_mem (s : State) (k : Option Key) : (setTyped s k).mem = s.mem := rfl
@[simp] theorem setTyped_fb (s : State) (k : Option Key) : (setTyped s k).fb = s.fb := rfl
@[simp] theorem setTyped_pressed (s : State) (k : Option Key) : (setTyped s k).pressed = s.pressed := rfl
@[simp] theorem setTyped_typed (s : State) (k : Option Key) : (setTyped s k).typed = k := rfl
@[simp] theorem setTyped_runState (s : State) (k : Option Key) : (setTyped s k).runState = s.runState := rfl
@[simp] theorem setTyped_batchCtr (s : State) (k : Option Key) : (setTyped s k).batchCtr = s.batchCtr := rfl
@[simp] theorem setTyped_stopReq (s : State) (k : Option Key) : (setTyped s k).stopReq = s.stopReq := rfl
@[simp] theorem setTyped_faulted (s : State) (k : Option Key) : (setTyped s k).faulted = s.faulted := rfl
@[simp] theorem setTyped_turns (s : State) (k : Option Key) : (setTyped s k).turns = s.turns := rfl
@[simp] theorem setTyped_presented (s : State) (k : Option Key) : (setTyped s k).presented = s.presented := rfl
@[simp] theorem setTyped_randCtr (s : State) (k : Option Key) : (setTyped s k).randCtr = s.randCtr := rfl

/-! ## setRunState -/

@[simp] theorem setRunState_v (s : State) (r : RunState) : (setRunState s r).v = s.v := rfl
@[simp] theorem setRunState_i (s : State) (r : RunState) : (setRunState s r).i = s.i := rfl
@[simp] theorem setRunState_pc (s : State) (r : RunState) : (setRunState s r).pc = s.pc := rfl
@[simp] theorem setRunState_stack (s : State) (r : RunState) : (setRunState s r).stack = s.stack := rfl
@[simp] theorem setRunState_sp (s : State) (r : RunState) : (setRunState s r).sp = s.sp := rfl
@[simp] theorem setRunState_opcode (s : State) (r : RunState) : (setRunState s r).opcode = s.opcode := rfl
@[simp] theorem setRunState_delay (s : State) (r : RunState) : (setRunState s r).delay = s.delay := rfl
@[simp] theorem setRunState_sound (s : State) (r : RunState) : (setRunState s r).sound = s.sound := rfl
@[simp] theorem setRunState_mem (s : State) (r : RunState) : (setRunState s r).mem = s.mem := rfl
@[simp] theorem setRunState_fb (s : State) (r : RunState) : (setRunState s r).fb = s.fb := rfl
@[simp] theorem setRunState_pressed (s : State) (r : RunState) : (setRunState s r).pressed = s.pressed := rfl
@[simp] theorem setRunState_typed (s : State) (r : RunState) : (setRunState s r).typed = s.typed := rfl
@[simp] theorem setRunState_runState (s : State) (r : RunState) : (setRunState s r).runState = r := rfl
@[simp] theorem setRunState_batchCtr (s : State) (r : RunState) : (setRunState s r).batchCtr = s.batchCtr := rfl
@[simp] theorem setRunState_stopReq (s : State) (r : RunState) : (setRunState s r).stopReq = s.stopReq := rfl
@[simp] theorem setRunState_faulted (s : State) (r : RunState) : (setRunState s r).faulted = s.faulted := rfl
@[simp] theorem setRunState_turns (s : State) (r : RunState) : (setRunState s r).turns = s.turns := rfl
@[simp] theorem setRunState_presented (s : State) (r : RunState) : (setRunState s r).presented = s.presented := rfl
@[simp] theorem setRunState_randCtr (s : State) (r : RunState) : (setRunState s r).randCtr = s.randCtr := rfl

/-! ## setTurns -/

@[simp] theorem setTurns_v (s : State) (l : List Turn) : (setTurns s l).v = s.v := rfl
@[simp] theorem setTurns_i (s : State) (l : List Turn) : (setTurns s l).i = s.i := rfl
@[simp] theorem setTurns_pc (s : State) (l : List Turn) : (setTurns s l).pc = s.pc := rfl
@[simp] theorem setTurns_stack (s : State) (l : List Turn) : (setTurns s l).stack = s.stack := rfl
@[simp] theorem setTurns_sp (s : State) (l : List Turn) : (setTurns s l).sp = s.sp := rfl
@[simp] theorem setTurns_opcode (s : State) (l : List Turn) : (setTurns s l).opcode = s.opcode := rfl
@[simp] theorem setTurns_delay (s : State) (l : List Turn) : (setTurns s l).delay = s.delay := rfl
@[simp] theorem setTurns_sound (s : State) (l : List Turn) : (setTurns s l).sound = s.sound := rfl
@[simp] theorem setTurns_mem (s : State) (l : List Turn) : (setTurns s l).mem = s.mem := rfl
@[simp] theorem setTurns_fb (s : State) (l : List Turn) : (setTurns s l).fb = s.fb := rfl
@[simp] theorem setTurns_pressed (s : State) (l : List Turn) : (setTurns s l).pressed = s.pressed := rfl
@[simp] theorem setTurns_typed (s : State) (l : List Turn) : (setTurns s l).typed = s.typed := rfl
@[simp] theorem setTurns_runState (s : State) (l : List Turn) : (setTurns s l).runState = s.runState := rfl
@[simp] theorem setTurns_batchCtr (s : State) (l : List Turn) : (setTurns s l).batchCtr = s.batchCtr := rfl
@[simp] theorem setTurns_stopReq (s : State) (l : List Turn) : (setTurns s l).stopReq = s.stopReq := rfl
@[simp] theorem setTurns_faulted (s : State) (l : List Turn) : (setTurns s l).faulted = s.faulted := rfl
@[simp] theorem setTurns_turns (s : State) (l : List Turn) : (setTurns s l).turns = l := rfl
@[simp] theorem setTurns_presented (s : State) (l : List Turn) : (setTurns s l).presented = s.presented := rfl
@[simp] theorem setTurns_randCtr (s : State) (l : List Turn) : (setTurns s l).randCtr = s.randCtr := rfl

/-! ## advance -/

@[simp] theorem advance_v (s : State) : (advance s).v = s.v := rfl
@[simp] theorem advance_i (s : State) : (advance s).i = s.i := rfl
@[simp] theorem advance_pc (s : State) : (advance s).pc = s.pc + 2 := rfl
@[simp] theorem advance_stack (s : State) : (advance s).stack = s.stack := rfl
@[simp] theorem advance_sp (s : State) : (advance s).sp = s.sp := rfl
@[simp] theorem advance_opcode (s : State) : (advance s).opcode = s.opcode := rfl
@[simp] theorem advance_delay (s : State) : (advance s).delay = s.delay := rfl
@[simp] theorem advance_sound (s : State) : (advance s).sound = s.sound := rfl
@[simp] theorem advance_mem (s : State) : (advance s).mem = s.mem := rfl
@[simp] theorem advance_fb (s : State) : (advance s).fb = s.fb := rfl
@[simp] theorem advance_pressed (s : State) : (advance s).pressed = s.pressed := rfl
@[simp] theorem advance_typed (s : State) : (advance s).typed = s.typed := rfl
@[simp] theorem advance_runState (s : State) : (advance s).runState = s.runState := rfl
@[simp] theorem advance_batchCtr (s : State) : (advance s).batchCtr = s.batchCtr := rfl
@[simp] theorem advance_stopReq (s : State) : (advance s).stopReq = s.stopReq := rfl
@[simp] theorem advance_faulted (s : State) : (advance s).faulted = s.faulted := rfl
@[simp] theorem advance_turns (s : State) : (advance s).turns = s.turns := rfl
@[simp] theorem advance_presented (s : State) : (advance s).presented = s.presented := rfl
@[simp] theorem advance_randCtr (s : State) : (advance s).randCtr = s.randCtr := rfl

/-! ## skipIf -/

@[simp] theorem skipIf_v (s : State) (c : Bool) : (skipIf c s).v = s.v := rfl
@[simp] theorem skipIf_i (s : State) (c : Bool) : (skipIf c s).i = s.i := rfl
@[simp] theorem skipIf_pc (s : State) (c : Bool) : (skipIf c s).pc = if c then s.pc + 4 else s.pc + 2 := rfl
@[simp] theorem skipIf_stack (s : State) (c : Bool) : (skipIf c s).stack = s.stack := rfl
@[simp] theorem skipIf_sp (s : State) (c : Bool) : (skipIf c s).sp = s.sp := rfl
@[simp] theorem skipIf_opcode (s : State) (c : Bool) : (skipIf c s).opcode = s.opcode := rfl
@[simp] theorem skipIf_delay (s : State) (c : Bool) : (skipIf c s).delay = s.delay := rfl
@[simp] theorem skipIf_sound (s : State) (c : Bool) : (skipIf c s).sound = s.sound := rfl
@[simp] theorem skipIf_mem (s : State) (c : Bool) : (skipIf c s).mem = s.mem := rfl
@[simp] theorem skipIf_fb (s : State) (c : Bool) : (skipIf c s).fb = s.fb := rfl
@[simp] theorem skipIf_pressed (s : State) (c : Bool) : (skipIf c s).pressed = s.pressed := rfl
@[simp] theorem skipIf_typed (s : State) (c : Bool) : (skipIf c s).typed = s.typed := rfl
@[simp] theorem skipIf_runState (s : State) (c : Bool) : (skipIf c s).runState = s.runState := rfl
@[simp] theorem skipIf_batchCtr (s : State) (c : Bool) : (skipIf c s).batchCtr = s.batchCtr := rfl
@[simp] theorem skipIf_stopReq (s : State) (c : Bool) : (skipIf c s).stopReq = s.stopReq := rfl
@[simp] theorem skipIf_faulted (s : State) (c : Bool) : (skipIf c s).faulted = s.faulted := rfl
@[simp] theorem skipIf_turns (s : State) (c : Bool) : (skipIf c s).turns = s.turns := rfl
@[simp] theorem skipIf_presented (s : State) (c : Bool) : (skipIf c s).presented = s.presented := rfl
@[simp] theorem skipIf_randCtr (s : State) (c : Bool) : (skipIf c s).randCtr = s.randCtr := rfl

/-! ## storeByte -/

@[simp] theorem storeByte_v (s : State) (a : Nat) (b : Byte) : (storeByte s a b).v = s.v := rfl
@[simp] theorem storeByte_i (s : State) (a : Nat) (b : Byte) : (storeByte s a b).i = s.i := rfl
@[simp] theorem storeByte_pc (s : State) (a : Nat) (b : Byte) : (storeByte s a b).pc = s.pc := rfl
@[simp] theorem storeByte_stack (s : State) (a : Nat) (b : Byte) : (storeByte s a b).stack = s.stack := rfl
@[simp] theorem storeByte_sp (s : State) (a : Nat) (b : Byte) : (storeByte s a b).sp = s.sp := rfl
@[simp] theorem storeByte_opcode (s : State) (a : Nat) (b : Byte) : (storeByte s a b).opcode = s.opcode := rfl
@[simp] theorem storeByte_delay (s : State) (a : Nat) (b : Byte) : (storeByte s a b).delay = s.delay := rfl
@[simp] theorem storeByte_sound (s : State) (a : Nat) (b : Byte) : (storeByte s a b).sound = s.sound := rfl
@[simp] theorem storeByte_mem (s : State) (a : Nat) (b : Byte) : (storeByte s a b).mem = memWrite s.mem a b := rfl
@[simp] theorem storeByte_fb (s : State) (a : Nat) (b : Byte) : (storeByte s a b).fb = s.fb := rfl
@[simp] theorem storeByte_pressed (s : State) (a : Nat) (b : Byte) : (storeByte s a b).pressed = s.pressed := rfl
@[simp] theorem storeByte_typed (s : State) (a : Nat) (b : Byte) : (storeByte s a b).typed = s.typed := rfl
@[simp] theorem storeByte_runState (s : State) (a : Nat) (b : Byte) : (storeByte s a b).runState = s.runState := rfl
@[simp] theorem storeByte_batchCtr (s : State) (a : Nat) (b : Byte) : (storeByte s a b).batchCtr = s.batchCtr := rfl
@[simp] theorem storeByte_stopReq (s : State) (a : Nat) (b : Byte) : (storeByte s a b).stopReq = s.stopReq := rfl
@[simp] theorem storeByte_faulted (s : State) (a : Nat) (b : Byte) : (storeByte s a b).faulted = s.faulted := rfl
@[simp] theorem storeByte_turns (s : State) (a : Nat) (b : Byte) : (storeByte s a b).turns = s.turns := rfl
@[simp] theorem storeByte_presented (s : State) (a : Nat) (b : Byte) : (storeByte s a b).presented = s.presented := rfl
@[simp] theorem storeByte_randCtr (s : State) (a : Nat) (b : Byte) : (storeByte s a b).randCtr = s.randCtr := rfl

/-! ## present -/

@[simp] theorem present_v (s : State) : (present s).v = s.v := rfl
@[simp] theorem present_i (s : State) : (present s).i = s.i := rfl
@[simp] theorem present_pc (s : State) : (present s).pc = s.pc := rfl
@[simp] theorem present_stack (s : State) : (present s).stack = s.stack := rfl
@[simp] theorem present_sp (s : State) : (present s).sp = s.sp := rfl
@[simp] theorem present_opcode (s : State) : (present s).opcode = s.opcode := rfl
@[simp] theorem present_delay (s : State) : (present s).delay = s.delay := rfl
@[simp] theorem present_sound (s : State) : (present s).sound = s.sound := rfl
@[simp] theorem present_mem (s : State) : (present s).mem = s.mem := rfl
@[simp] theorem present_fb (s : State) : (present s).fb = s.fb := rfl
@[simp] theorem present_pressed (s : State) : (present s).pressed = s.pressed := rfl
@[simp] theorem present_typed (s : State) : (present s).typed = s.typed := rfl
@[simp] theorem present_runState (s : State) : (present s).runState = s.runState := rfl
@[simp] theorem present_batchCtr (s : State) : (present s).batchCtr = s.batchCtr := rfl
@[simp] theorem present_stopReq (s : State) : (present s).stopReq = s.stopReq := rfl
@[simp] theorem present_faulted (s : State) : (present s).faulted = s.faulted := rfl
@[simp] theorem present_turns (s : State) : (present s).turns = s.turns := rfl
@[simp] theorem present_presented (s : State) : (present s).presented = s.fb :: s.presented := rfl
@[simp] theorem present_randCtr (s : State) : (present s).randCtr = s.randCtr := rfl

/-! ## useRand -/

@[simp] theorem useRand_v (s : State) : (useRand s).v = s.v := rfl
@[simp] theorem useRand_i (s : State) : (useRand s).i = s.i := rfl
@[simp] theorem useRand_pc (s : State) : (useRand s).pc = s.pc := rfl
@[simp] theorem useRand_stack (s : State) : (useRand s).stack = s.stack := rfl
@[simp] theorem useRand_sp (s : State) : (useRand s).sp = s.sp := rfl
@[simp] theorem useRand_opcode (s : State) : (useRand s).opcode = s.opcode := rfl
@[simp] theorem useRand_delay (s : State) : (useRand s).delay = s.delay := rfl
@[simp] theorem useRand_sound (s : State) : (useRand s).sound = s.sound := rfl
@[simp] theorem useRand_mem (s : State) : (useRand s).mem = s.mem := rfl
@[simp] theorem useRand_fb (s : State) : (useRand s).fb = s.fb := rfl
@[simp] theorem useRand_pressed (s : State) : (useRand s).pressed = s.pressed := rfl
@[simp] theorem useRand_typed (s : State) : (useRand s).typed = s.typed := rfl
@[simp] theorem useRand_runState (s : State) : (useRand s).runState = s.runState := rfl
@[simp] theorem useRand_batchCtr (s : State) : (useRand s).batchCtr = s.batchCtr := rfl
@[simp] theorem useRand_stopReq (s : State) : (useRand s).stopReq = s.stopReq := rfl
@[simp] theorem useRand_faulted (s : State) : (useRand s).faulted = s.faulted := rfl
@[simp] theorem useRand_turns (s : State) : (useRand s).turns = s.turns := rfl
@[simp] theorem useRand_presented (s : State) : (useRand s).presented = s.presented := rfl
@[simp] theorem useRand_randCtr (s : State) : (useRand s).randCtr = s.randCtr + 1 := rfl

/-! ## recordFault -/

@[simp] theorem recordFault_v (s : State) (f : Fault) : (recordFault f s).v = s.v := rfl
@[simp] theorem recordFault_i (s : State) (f : Fault) : (recordFault f s).i = s.i := rfl
@[simp] theorem recordFault_pc (s : State) (f : Fault) : (recordFault f s).pc = s.pc := rfl
@[simp] theorem recordFault_stack (s : State) (f : Fault) : (recordFault f s).stack = s.stack := rfl
@[simp] theorem recordFault_sp (s : State) (f : Fault) : (recordFault f s).sp = s.sp := rfl
@[simp] theorem recordFault_opcode (s : State) (f : Fault) : (recordFault f s).opcode = s.opcode := rfl
@[simp] theorem recordFault_delay (s : State) (f : Fault) : (recordFault f s).delay = s.delay := rfl
@[simp] theorem recordFault_sound (s : State) (f : Fault) : (recordFault f s).sound = s.sound := rfl
@[simp] theorem recordFault_mem (s : State) (f : Fault) : (recordFault f s).mem = s.mem := rfl
@[simp] theorem recordFault_fb (s : State) (f : Fault) : (recordFault f s).fb = s.fb := rfl
@[simp] theorem recordFault_pressed (s : State) (f : Fault) : (recordFault f s).pressed = s.pressed := rfl
@[simp] theorem recordFault_typed (s : State) (f : Fault) : (recordFault f s).typed = s.typed := rfl
@[simp] theorem recordFault_runState (s : State) (f : Fault) : (recordFault f s).runState = s.runState := rfl
@[simp] theorem recordFault_batchCtr (s : State) (f : Fault) : (recordFault f s).batchCtr = s.batchCtr := rfl
@[simp] theorem recordFault_stopReq (s : State) (f : Fault) : (recordFault f s).stopReq = s.stopReq := rfl
@[simp] theorem recordFault_faulted (s : State) (f : Fault) : (recordFault f s).faulted = some f := rfl
@[simp] theorem recordFault_turns (s : State) (f : Fault) : (recordFault f s).turns = s.turns := rfl
@[simp] theorem recordFault_presented (s : State) (f : Fault) : (recordFault f s).presented = s.presented := rfl
@[simp] theorem recordFault_randCtr (s : State) (f : Fault) : (recordFault f s).randCtr = s.randCtr := rfl

/-! ## clearFault -/

@[simp] theorem clearFault_v (s : State) : (clearFault s).v = s.v := rfl
@[simp] theorem clearFault_i (s : State) : (clearFault s).i = s.i := rfl
@[simp] theorem clearFault_pc (s : State) : (clearFault s).pc = s.pc := rfl
@[simp] theorem clearFault_stack (s : State) : (clearFault s).stack = s.stack := rfl
@[simp] theorem clearFault_sp (s : State) : (clearFault s).sp = s.sp := rfl
@[simp] theorem clearFault_opcode (s : State) : (clearFault s).opcode = s.opcode := rfl
@[simp] theorem clearFault_delay (s : State) : (clearFault s).delay = s.delay := rfl
@[simp] theorem clearFault_sound (s : State) : (clearFault s).sound = s.sound := rfl
@[simp] theorem clearFault_mem (s : State) : (clearFault s).mem = s.mem := rfl
@[simp] theorem clearFault_fb (s : State) : (clearFault s).fb = s.fb := rfl
@[simp] theorem clearFault_pressed (s : State) : (clearFault s).pressed = s.pressed := rfl
@[simp] theorem clearFault_typed (s : State) : (clearFault s).typed = s.typed := rfl
@[simp] theorem clearFault_runState (s : State) : (clearFault s).runState = s.runState := rfl
@[simp] theorem clearFault_batchCtr (s : State) : (clearFault s).batchCtr = s.batchCtr := rfl
@[simp] theorem clearFault_stopReq (s : State) : (clearFault s).stopReq = s.stopReq := rfl
@[simp] theorem clearFault_faulted (s : State) : (clearFault s).faulted = none := rfl
@[simp] theorem clearFault_turns (s : State) : (clearFault s).turns = s.turns := rfl
@[simp] theorem clearFault_presented (s : State) : (clearFault s).presented = s.presented := rfl
@[simp] theorem clearFault_randCtr (s : State) : (clearFault s).randCtr = s.randCtr := rfl

/-! ## timerTick -/

@[simp] theorem timerTick_v (s : State) : (timerTick s).v = s.v := rfl
@[simp] theorem timerTick_i (s : State) : (timerTick s).i = s.i := rfl
@[simp] theorem timerTick_pc (s : State) : (timerTick s).pc = s.pc := rfl
@[simp] theorem timerTick_stack (s : State) : (timerTick s).stack = s.stack := rfl
@[simp] theorem timerTick_sp (s : State) : (timerTick s).sp = s.sp := rfl
@[simp] theorem timerTick_opcode (s : State) : (timerTick s).opcode = s.opcode := rfl
@[simp] theorem timerTick_delay (s : State) : (timerTick s).delay = decay s.delay := rfl
@[simp] theorem timerTick_sound (s : State) : (timerTick s).sound = decay s.sound := rfl
@[simp] theorem timerTick_mem (s : State) : (timerTick s).mem = s.mem := rfl
@[simp] theorem timerTick_fb (s : State) : (timerTick s).fb = s.fb := rfl
@[simp] theorem timerTick_pressed (s : State) : (timerTick s).pressed = s.pressed := rfl
@[simp] theorem timerTick_typed (s : State) : (timerTick s).typed = s.typed := rfl
@[simp] theorem timerTick_runState (s : State) : (timerTick s).runState = s.runState := rfl
@[simp] theorem timerTick_batchCtr (s : State) : (timerTick s).batchCtr = s.batchCtr := rfl
@[simp] theorem timerTick_stopReq (s : State) : (timerTick s).stopReq = s.stopReq := rfl
@[simp] theorem timerTick_faulted (s : State) : (timerTick s).faulted = s.faulted := rfl
@[simp] theorem timerTick_turns (s : State) : (timerTick s).turns = s.turns := rfl
@[simp] theorem timerTick_presented (s : State) : (timerTick s).presented = s.presented := rfl
@[simp] theorem timerTick_randCtr (s : State) : (timerTick s).randCtr = s.randCtr := rfl

end Sys2Proof.Machine
end

