-- ==== Sys2Proof/Laws/Memory.lean ====
section
/-! SUPPORT. RAM: read after write, the frame of a write, and that every memory operation keeps the canonical form. -/

namespace Sys2Proof.Machine

/-! ## Cells -/

theorem lookupCell_eraseCell (m : Memory) (a a' : Nat) :
    lookupCell a' (eraseCell a m) = if a' = a then none else lookupCell a' m := by
  induction m with
  | nil => simp [eraseCell, lookupCell]
  | cons c m ih =>
    simp only [eraseCell, List.filter_cons] at ih ⊢
    by_cases hc : c.1 = a <;> by_cases ha : a' = a <;> (simp_all [lookupCell]; try omega)

theorem lookupCell_insertCell (m : Memory) (a a' : Nat) (b : Byte) (h : lookupCell a m = none) :
    lookupCell a' (insertCell a b m) = if a' = a then some b else lookupCell a' m := by
  induction m with
  | nil => simp [insertCell, lookupCell, eq_comm]
  | cons c m ih =>
    have hc : c.1 ≠ a ∧ lookupCell a m = none := by
      simp only [lookupCell] at h
      split at h <;> simp_all
    unfold insertCell
    split
    · simp only [lookupCell]
      by_cases ha : a = a' <;> simp [ha, eq_comm]
    · simp only [lookupCell, ih hc.2]
      by_cases ha : c.1 = a' <;> simp [ha]
      intro h; exact absurd (ha.trans h) hc.1

/-! ## Reads and writes (R51, R52) -/

theorem memRead_outside (m : Memory) (a : Nat) (h : memSize ≤ a) : memRead m a = 0 := by simp [memRead]; omega

theorem memWrite_outside (m : Memory) (a : Nat) (b : Byte) (h : memSize ≤ a) : memWrite m a b = m := by
  simp [memWrite]; omega

theorem memRead_memWrite_same (m : Memory) (a : Nat) (b : Byte) (h : a < memSize) : memRead (memWrite m a b) a = b := by
  unfold memRead memWrite
  simp only [h, if_true]
  split
  · next hb => simp [lookupCell_eraseCell, hb]
  · rw [lookupCell_insertCell _ _ _ _ (by simp [lookupCell_eraseCell])]; simp

theorem memRead_memWrite_other (m : Memory) (a a' : Nat) (b : Byte) (h : a' ≠ a) :
    memRead (memWrite m a b) a' = memRead m a' := by
  unfold memRead memWrite
  split
  · split
    · split
      · simp [lookupCell_eraseCell, h]
      · rw [lookupCell_insertCell _ _ _ _ (by simp [lookupCell_eraseCell])]
        simp [lookupCell_eraseCell, h]
    · rfl
  · rfl

/-- Where a byte sequence written from `a` upward is read back, and that it leaves every other byte alone. -/
theorem memRead_memWriteBytes (bs : List Byte) (m : Memory) (a a' : Nat) :
    memRead (memWriteBytes m a bs) a'
      = if a ≤ a' ∧ a' < a + bs.length ∧ a' < memSize then bs.getD (a' - a) 0 else memRead m a' := by
  induction bs generalizing m a with
  | nil =>
    have : ¬(a ≤ a' ∧ a' < a + 0 ∧ a' < memSize) := by omega
    simp [memWriteBytes]; intro h1 h2; omega
  | cons b bs ih =>
    rw [memWriteBytes, ih]
    by_cases he : a' = a
    · subst he
      by_cases hm : a' < memSize
      · simp [memRead_memWrite_same, hm]
      · have : ¬(a' + 1 ≤ a') := by omega
        simp [memWrite_outside m a' b (by omega), hm]
    · rw [memRead_memWrite_other _ _ _ _ he]
      by_cases hl : a ≤ a'
      · have h1 : a + 1 ≤ a' := by omega
        have h2 : a' - a = (a' - (a + 1)) + 1 := by omega
        have h3 : (a' < a + 1 + bs.length) ↔ (a' < a + (b :: bs).length) := by simp; omega
        simp only [h1, hl, h3, h2, List.getD_cons_succ]
      · have h1 : ¬ a + 1 ≤ a' := by omega
        simp [h1, hl]

/-- What a block store of `V[0] .. V[k-1]` leaves at each address (R164). -/
theorem memRead_storeRegs (s : State) (base : Word) (k a : Nat) :
    memRead (storeRegs s base k) a
      = if base.toNat ≤ a ∧ a < base.toNat + k ∧ a < memSize then getV s (regOfNat (a - base.toNat)) else memRead s.mem a := by
  induction k with
  | zero => simp [storeRegs]; intro h1 h2; omega
  | succ k ih =>
    rw [storeRegs]
    by_cases he : a = effAddr base k
    · subst he
      by_cases hm : effAddr base k < memSize
      · rw [memRead_memWrite_same _ _ _ hm]; simp [effAddr] at hm ⊢; simp [hm]
      · rw [memWrite_outside _ _ _ (by omega), ih]
        simp [hm]
    · rw [memRead_memWrite_other _ _ _ _ he, ih]
      simp only [effAddr] at he
      by_cases h : base.toNat ≤ a ∧ a < base.toNat + k ∧ a < memSize
      · rw [if_pos h, if_pos (by omega)]
      · rw [if_neg h, if_neg (by omega)]

/-! ## The canonical form -/

theorem cellsWfFrom_mono {m : Memory} {lo lo' : Nat} (hl : lo' ≤ lo) (h : cellsWfFrom lo m = true) :
    cellsWfFrom lo' m = true := by
  cases m with
  | nil => rfl
  | cons c m =>
    simp only [cellsWfFrom, Bool.and_eq_true, decide_eq_true_eq] at h ⊢
    exact ⟨⟨⟨by omega, h.1.1.2⟩, h.1.2⟩, h.2⟩

theorem cellsWfFrom_eraseCell {m : Memory} {lo : Nat} (a : Nat) (h : cellsWfFrom lo m = true) :
    cellsWfFrom lo (eraseCell a m) = true := by
  induction m generalizing lo with
  | nil => rfl
  | cons c m ih =>
    simp only [cellsWfFrom, Bool.and_eq_true, decide_eq_true_eq] at h
    simp only [eraseCell, List.filter_cons] at ih ⊢
    split
    · simp only [cellsWfFrom, Bool.and_eq_true, decide_eq_true_eq]
      exact ⟨h.1, ih h.2⟩
    · exact cellsWfFrom_mono (by omega) (ih h.2)

theorem cellsWfFrom_insertCell {m : Memory} {lo a : Nat} {b : Byte} (hlo : lo ≤ a) (ha : a < memSize) (hb : b ≠ resetByte a)
    (hn : lookupCell a m = none) (h : cellsWfFrom lo m = true) : cellsWfFrom lo (insertCell a b m) = true := by
  induction m generalizing lo with
  | nil => simp [insertCell, cellsWfFrom, *]
  | cons c m ih =>
    simp only [cellsWfFrom, Bool.and_eq_true, decide_eq_true_eq] at h
    have hc : c.1 ≠ a ∧ lookupCell a m = none := by
      simp only [lookupCell] at hn
      split at hn <;> simp_all
    unfold insertCell
    split
    · simp only [cellsWfFrom, Bool.and_eq_true, decide_eq_true_eq]
      exact ⟨⟨⟨hlo, ha⟩, hb⟩, ⟨⟨by omega, h.1.1.2⟩, h.1.2⟩, h.2⟩
    · simp only [cellsWfFrom, Bool.and_eq_true, decide_eq_true_eq]
      exact ⟨h.1, ih (by omega) hc.2 h.2⟩

theorem memWf_memWrite {m : Memory} (a : Nat) (b : Byte) (h : memWf m = true) : memWf (memWrite m a b) = true := by
  unfold memWrite memWf at *
  split
  · split
    · exact cellsWfFrom_eraseCell a h
    · next ha hb =>
      exact cellsWfFrom_insertCell (Nat.zero_le _) ha hb (by simp [lookupCell_eraseCell]) (cellsWfFrom_eraseCell a h)
  · exact h

theorem memWf_memWriteBytes {m : Memory} (a : Nat) (bs : List Byte) (h : memWf m = true) :
    memWf (memWriteBytes m a bs) = true := by
  induction bs generalizing m a with
  | nil => exact h
  | cons b bs ih => exact ih _ (memWf_memWrite a b h)

theorem memWf_storeByte {s : State} (a : Nat) (b : Byte) (h : memWf s.mem = true) : memWf (storeByte s a b).mem = true :=
  memWf_memWrite a b h

theorem memWf_storeRegs {s : State} (base : Word) (k : Nat) (h : memWf s.mem = true) :
    memWf (storeRegs s base k) = true := by
  induction k with
  | zero => exact h
  | succ k ih => exact memWf_memWrite _ _ ih

theorem memWf_reset : memWf State.reset.mem = true := rfl

end Sys2Proof.Machine
end

