-- ==== Sys2Proof/Laws/Operands.lean ====
section
/-! SUPPORT. The operand forms and the flag values as numbers, so that no later proof unfolds one. -/

namespace Sys2Proof.Machine

/-! ## Operands -/

theorem translateAddr_toNat (addr : Addr) : (translateAddr addr).toNat = physical addr := by
  have := addr.isLt
  unfold translateAddr physical baseOffset
  rw [BitVec.toNat_sub]; simp; omega

theorem zext16_toNat (b : Byte) : (zext16 b).toNat = b.toNat := by
  have := b.isLt
  simp [zext16]; omega

theorem keyByte_toNat (k : Key) : (keyByte k).toNat = k.toNat := by
  have := k.isLt
  simp [keyByte]; omega

theorem regOfNat_toNat (r : RegIx) : regOfNat r.toNat = r := by simp [regOfNat]

theorem fontAddr_toNat (b : Byte) : (fontAddr b).toNat = b.toNat * 5 + 0xFB0 := by
  have := b.isLt
  rw [fontAddr, BitVec.toNat_ofNat, fontBase, Nat.mod_eq_of_lt (by omega), Nat.add_comm]

theorem bcd_toNat : ∀ b : Byte,
    (bcdHundreds b).toNat = b.toNat / 100 ∧ (bcdTens b).toNat = b.toNat / 10 % 10 ∧ (bcdOnes b).toNat = b.toNat % 10 := by
  decide +revert

/-- How a byte difference reads as a number. -/
theorem byte_sub_toNat (a b : Byte) : (a - b).toNat = (a.toNat + 256 - b.toNat) % 256 := by
  have := b.isLt
  rw [BitVec.toNat_sub]; congr 1; omega

/-! ## Flags -/

theorem flagByte_toNat (c : Bool) : (flagByte c).toNat = if c then 1 else 0 := by cases c <;> rfl

theorem flagByte_eq_one (c : Bool) : flagByte c = 1 ↔ c = true := by cases c <;> decide

theorem carryFlag_toNat (a b : Byte) : (carryFlag a b).toNat = if 255 < a.toNat + b.toNat then 1 else 0 := by
  simp [carryFlag, flagByte_toNat]

theorem notBorrowFlag_toNat (a b : Byte) : (notBorrowFlag a b).toNat = if b.toNat ≤ a.toNat then 1 else 0 := by
  simp [notBorrowFlag, flagByte_toNat]

theorem bit0Flag_toNat : ∀ a : Byte, (bit0Flag a).toNat = a.toNat % 2 := by decide +revert

theorem bit6Flag_toNat : ∀ a : Byte, (bit6Flag a).toNat = a.toNat / 64 % 2 := by decide +revert

/-! ## The program counter and the keypad -/

theorem pcMoved_of_eq {s t : State} (k : Nat) (h : t.pc = s.pc + BitVec.ofNat 16 k) (hk : k < 65536) : pcMoved s t k := by
  unfold pcMoved
  rw [h, BitVec.toNat_add]; simp [Nat.mod_eq_of_lt hk]

theorem keyIsDown_iff (s : State) (b : Byte) : keyIsDown s b = true ↔ ∃ k, s.pressed = some k ∧ k.toNat = b.toNat := by
  unfold keyIsDown
  cases h : s.pressed with
  | none => simp
  | some k => simp only [beq_iff_eq, Option.some.injEq, exists_eq_left', ← keyByte_toNat k, BitVec.toNat_inj]

end Sys2Proof.Machine
end

