-- ==== Sys2Proof/Laws/PerInstr.lean ====
section
/-! SUPPORT. Statements made per instruction, one lemma per constructor of `Instr`. -/

namespace Sys2Proof.Laws.EncodeInMap

/-- The opcode of an instruction lies outside the unmatched set of spec 30_encoding.md R90. -/
def Statement (i : Instr) : Prop := opcodeUnmatched (encode i) = false

/-- A word of a family without sub-dispatch is matched (R89). -/
theorem of_family {w : Word} (h : w.toNat / 4096 ≠ 0x0 ∧ w.toNat / 4096 ≠ 0x8 ∧ w.toNat / 4096 ≠ 0xE ∧ w.toNat / 4096 ≠ 0xF) :
    opcodeUnmatched w = false := by
  simp [opcodeUnmatched, h]

theorem formatA {f : BitVec 4} (a : Addr) (h : f ≠ 0x0 ∧ f ≠ 0x8 ∧ f ≠ 0xE ∧ f ≠ 0xF) : opcodeUnmatched (f ++ a : Word) = false := by
  have := a.isLt
  simp only [ne_eq, ← BitVec.toNat_inj] at h
  apply of_family
  rw [toNat_formatA]
  simp at h
  omega

theorem formatXK {f : BitVec 4} (x : RegIx) (kk : Byte) (h : f ≠ 0x0 ∧ f ≠ 0x8 ∧ f ≠ 0xE ∧ f ≠ 0xF) :
    opcodeUnmatched (f ++ x ++ kk : Word) = false := by
  have := x.isLt
  have := kk.isLt
  simp only [ne_eq, ← BitVec.toNat_inj] at h
  apply of_family
  rw [toNat_formatXK]
  simp at h
  omega

theorem formatXYN {f : BitVec 4} (x y : RegIx) (n : Nibble) (h : f ≠ 0x0 ∧ f ≠ 0x8 ∧ f ≠ 0xE ∧ f ≠ 0xF) :
    opcodeUnmatched (f ++ x ++ y ++ n : Word) = false := by
  have := x.isLt
  have := y.isLt
  have := n.isLt
  simp only [ne_eq, ← BitVec.toNat_inj] at h
  apply of_family
  rw [toNat_formatXYN]
  simp at h
  omega

/-- A word of family 0x8 with a selector of R86 is matched. -/
theorem of_family8 {w : Word} (h : w.toNat / 4096 = 8) (hn : w.toNat % 16 ≤ 7 ∨ w.toNat % 16 = 0xE) :
    opcodeUnmatched w = false := by
  simp [opcodeUnmatched, h]; omega

/-- A word of family 0xE with a selector of R87 is matched. -/
theorem of_familyE {w : Word} (h : w.toNat / 4096 = 14) (hk : w.toNat % 256 = 0x9E ∨ w.toNat % 256 = 0xA1) :
    opcodeUnmatched w = false := by
  simp [opcodeUnmatched, h]; omega

/-- The selectors of family 0xF (R88). -/
def selectorsF : List Nat := [0x07, 0x0A, 0x15, 0x18, 0x1E, 0x29, 0x33, 0x55, 0x65]

/-- A word of family 0xF with a selector of R88 is matched. -/
theorem of_familyF {w : Word} (h : w.toNat / 4096 = 15) (hk : w.toNat % 256 ∈ selectorsF) : opcodeUnmatched w = false := by
  simp [selectorsF] at hk
  simp [opcodeUnmatched, h]; omega

theorem format8 (x y : RegIx) {n : Nibble} (h : n.toNat ≤ 7 ∨ n.toNat = 0xE) :
    opcodeUnmatched (0x8#4 ++ x ++ y ++ n : Word) = false := by
  have := x.isLt
  have := y.isLt
  have := n.isLt
  have e := toNat_formatXYN 0x8#4 x y n
  rw [show (0x8#4).toNat = 8 from rfl] at e
  exact of_family8 (by omega) (by omega)

theorem formatE (x : RegIx) {kk : Byte} (h : kk.toNat = 0x9E ∨ kk.toNat = 0xA1) :
    opcodeUnmatched (0xE#4 ++ x ++ kk : Word) = false := by
  have := x.isLt
  have := kk.isLt
  have e := toNat_formatXK 0xE#4 x kk
  rw [show (0xE#4).toNat = 14 from rfl] at e
  exact of_familyE (by omega) (by omega)

theorem formatF (x : RegIx) {kk : Byte} (h : kk.toNat ∈ selectorsF) : opcodeUnmatched (0xF#4 ++ x ++ kk : Word) = false := by
  have := x.isLt
  have := kk.isLt
  have e := toNat_formatXK 0xF#4 x kk
  rw [show (0xF#4).toNat = 15 from rfl] at e
  have hk : (0xF#4 ++ x ++ kk : Word).toNat % 256 = kk.toNat := by omega
  exact of_familyF (by omega) (by rw [hk]; exact h)

theorem halt : Statement .halt := rfl
theorem cls : Statement .cls := rfl
theorem ret : Statement .ret := rfl
theorem nop00C1 : Statement .nop00C1 := rfl
theorem nop00C2 : Statement .nop00C2 := rfl
theorem nop00C3 : Statement .nop00C3 := rfl
theorem nop00C4 : Statement .nop00C4 := rfl
theorem nop00C5 : Statement .nop00C5 := rfl
theorem nop00C6 : Statement .nop00C6 := rfl
theorem nop00C7 : Statement .nop00C7 := rfl
theorem nop00C8 : Statement .nop00C8 := rfl
theorem nop00C9 : Statement .nop00C9 := rfl
theorem nop00CA : Statement .nop00CA := rfl
theorem nop00CB : Statement .nop00CB := rfl
theorem nop00CC : Statement .nop00CC := rfl
theorem nop00CD : Statement .nop00CD := rfl
theorem nop00CF : Statement .nop00CF := rfl
theorem nop00F1 : Statement .nop00F1 := rfl
theorem nop00F2 : Statement .nop00F2 := rfl
theorem nop00F3 : Statement .nop00F3 := rfl
theorem nop00F4 : Statement .nop00F4 := rfl
theorem nop00F5 : Statement .nop00F5 := rfl
theorem nop00F6 : Statement .nop00F6 := rfl
theorem nop00F7 : Statement .nop00F7 := rfl
theorem nop00F8 : Statement .nop00F8 := rfl
theorem nop00F9 : Statement .nop00F9 := rfl
theorem nop00FA : Statement .nop00FA := rfl
theorem nop00FB : Statement .nop00FB := rfl
theorem nop00FC : Statement .nop00FC := rfl
theorem nop00FD : Statement .nop00FD := rfl
theorem nop00FF : Statement .nop00FF := rfl
theorem jp (a : Addr) : Statement (.jp a) := formatA a (by decide)
theorem call (a : Addr) : Statement (.call a) := formatA a (by decide)
theorem ldI (a : Addr) : Statement (.ldI a) := formatA a (by decide)
theorem jpV0 (a : Addr) : Statement (.jpV0 a) := formatA a (by decide)
theorem seImm (x : RegIx) (kk : Byte) : Statement (.seImm x kk) := formatXK x kk (by decide)
theorem sneImm (x : RegIx) (kk : Byte) : Statement (.sneImm x kk) := formatXK x kk (by decide)
theorem ldImm (x : RegIx) (kk : Byte) : Statement (.ldImm x kk) := formatXK x kk (by decide)
theorem addImm (x : RegIx) (kk : Byte) : Statement (.addImm x kk) := formatXK x kk (by decide)
theorem rnd (x : RegIx) (kk : Byte) : Statement (.rnd x kk) := formatXK x kk (by decide)
theorem seReg (x y : RegIx) (n : Nibble) : Statement (.seReg x y n) := formatXYN x y n (by decide)
theorem sneReg (x y : RegIx) (n : Nibble) : Statement (.sneReg x y n) := formatXYN x y n (by decide)
theorem drw (x y : RegIx) (n : Nibble) : Statement (.drw x y n) := formatXYN x y n (by decide)
theorem ldReg (x y : RegIx) : Statement (.ldReg x y) := format8 x y (by decide)
theorem orReg (x y : RegIx) : Statement (.orReg x y) := format8 x y (by decide)
theorem andReg (x y : RegIx) : Statement (.andReg x y) := format8 x y (by decide)
theorem xorReg (x y : RegIx) : Statement (.xorReg x y) := format8 x y (by decide)
theorem addReg (x y : RegIx) : Statement (.addReg x y) := format8 x y (by decide)
theorem subReg (x y : RegIx) : Statement (.subReg x y) := format8 x y (by decide)
theorem shr (x y : RegIx) : Statement (.shr x y) := format8 x y (by decide)
theorem subnReg (x y : RegIx) : Statement (.subnReg x y) := format8 x y (by decide)
theorem shl (x y : RegIx) : Statement (.shl x y) := format8 x y (by decide)
theorem skp (x : RegIx) : Statement (.skp x) := formatE x (by decide)
theorem sknp (x : RegIx) : Statement (.sknp x) := formatE x (by decide)
theorem ldVxDt (x : RegIx) : Statement (.ldVxDt x) := formatF x (by decide)
theorem ldVxK (x : RegIx) : Statement (.ldVxK x) := formatF x (by decide)
theorem ldDtVx (x : RegIx) : Statement (.ldDtVx x) := formatF x (by decide)
theorem ldStVx (x : RegIx) : Statement (.ldStVx x) := formatF x (by decide)
theorem addI (x : RegIx) : Statement (.addI x) := formatF x (by decide)
theorem ldF (x : RegIx) : Statement (.ldF x) := formatF x (by decide)
theorem ldB (x : RegIx) : Statement (.ldB x) := formatF x (by decide)
theorem ldMemVx (x : RegIx) : Statement (.ldMemVx x) := formatF x (by decide)
theorem ldVxMem (x : RegIx) : Statement (.ldVxMem x) := formatF x (by decide)

end Sys2Proof.Laws.EncodeInMap
end

