-- ==== Sys2Proof/Laws/Registers.lean ====
section
/-! SUPPORT. Reading and writing the general registers, and the call stack. -/

namespace Sys2Proof.Machine

/-! ## General registers -/

theorem getV_setV (s : State) (x r : RegIx) (b : Byte) : getV (setV s x b) r = if r = x then b else getV s r := by
  unfold getV setV
  simp only [Vector.getElem_set, BitVec.toNat_inj]
  by_cases h : x = r
  · simp [h]
  · simp [h, Ne.symm h]

@[simp] theorem getV_setV_self (s : State) (x : RegIx) (b : Byte) : getV (setV s x b) x = b := by simp [getV_setV]

theorem getV_setV_ne (s : State) (x r : RegIx) (b : Byte) (h : r ≠ x) : getV (setV s x b) r = getV s r := by
  simp [getV_setV, h]

theorem getV_setVF (s : State) (r : RegIx) (b : Byte) : getV (setVF s b) r = if r = regVF then b else getV s r :=
  getV_setV s regVF r b

@[simp] theorem getV_setVF_self (s : State) (b : Byte) : getV (setVF s b) 0xF = b := getV_setV_self s regVF b

theorem getV_setVF_ne (s : State) (r : RegIx) (b : Byte) (h : r ≠ 0xF) : getV (setVF s b) r = getV s r :=
  getV_setV_ne s regVF r b h

/-- Two states whose register files are equal read alike. -/
theorem getV_congr {s t : State} (h : t.v = s.v) (r : RegIx) : getV t r = getV s r := by simp [getV, h]

/-- Two states whose registers read alike have the same register file. -/
theorem v_ext {s t : State} (h : ∀ r, getV t r = getV s r) : t.v = s.v := by
  apply Vector.ext
  intro k hk
  have := h (BitVec.ofNat 4 k)
  simpa [getV, BitVec.toNat_ofNat, Nat.mod_eq_of_lt hk] using this

@[simp] theorem getV_setI (s : State) (a : Word) (r : RegIx) : getV (setI s a) r = getV s r := rfl
@[simp] theorem getV_setPc (s : State) (a : Word) (r : RegIx) : getV (setPc s a) r = getV s r := rfl
@[simp] theorem getV_setOpcode (s : State) (a : Word) (r : RegIx) : getV (setOpcode s a) r = getV s r := rfl
@[simp] theorem getV_setDelay (s : State) (b : Byte) (r : RegIx) : getV (setDelay s b) r = getV s r := rfl
@[simp] theorem getV_setSound (s : State) (b : Byte) (r : RegIx) : getV (setSound s b) r = getV s r := rfl
@[simp] theorem getV_setMem (s : State) (m : Memory) (r : RegIx) : getV (setMem s m) r = getV s r := rfl
@[simp] theorem getV_setFb (s : State) (f : FrameBuffer) (r : RegIx) : getV (setFb s f) r = getV s r := rfl
@[simp] theorem getV_setTyped (s : State) (k : Option Key) (r : RegIx) : getV (setTyped s k) r = getV s r := rfl
@[simp] theorem getV_setRunState (s : State) (q : RunState) (r : RegIx) : getV (setRunState s q) r = getV s r := rfl
@[simp] theorem getV_advance (s : State) (r : RegIx) : getV (advance s) r = getV s r := rfl
@[simp] theorem getV_skipIf (c : Bool) (s : State) (r : RegIx) : getV (skipIf c s) r = getV s r := rfl
@[simp] theorem getV_storeByte (s : State) (a : Nat) (b : Byte) (r : RegIx) : getV (storeByte s a b) r = getV s r := rfl
@[simp] theorem getV_present (s : State) (r : RegIx) : getV (present s) r = getV s r := rfl
@[simp] theorem getV_recordFault (f : Fault) (s : State) (r : RegIx) : getV (recordFault f s) r = getV s r := rfl
@[simp] theorem getV_useRand (s : State) (r : RegIx) : getV (useRand s) r = getV s r := rfl

/-! ## The call stack -/

/-- Everything a push that succeeds does. -/
theorem push_some {s t : State} {w : Word} (h : push s w = some t) :
    ∃ hs : s.sp.val < 16, t = { s with stack := s.stack.set s.sp.val w hs, sp := ⟨s.sp.val + 1, by omega⟩ } := by
  unfold push at h
  split at h
  · next hs => cases h; exact ⟨hs, rfl⟩
  · cases h

theorem push_none {s : State} {w : Word} : push s w = none ↔ s.sp.val = 16 := by
  unfold push
  have := s.sp.isLt
  split <;> simp <;> omega

/-- Everything a pop that succeeds does. -/
theorem pop_some {s t : State} {w : Word} (h : pop s = some (w, t)) :
    0 < s.sp.val ∧ ∃ _ : s.sp.val - 1 < 16,
      w = s.stack[s.sp.val - 1] ∧ t = { s with sp := ⟨s.sp.val - 1, by omega⟩ } := by
  have := s.sp.isLt
  unfold pop at h
  split at h
  · next hs => cases h; exact ⟨hs, by omega, rfl, rfl⟩
  · cases h

theorem pop_none {s : State} : pop s = none ↔ s.sp.val = 0 := by
  unfold pop
  split <;> simp <;> omega

/-! ## Block load -/

/-- A block load changes nothing but the registers. -/
theorem loadRegs_eq (s : State) (base : Word) (k : Nat) : loadRegs s base k = { s with v := (loadRegs s base k).v } := by
  induction k with
  | zero => rfl
  | succ k ih => rw [loadRegs, setV, ih]

/-- What a block load of `V[0] .. V[k-1]` leaves in each register (R165). -/
theorem getV_loadRegs (s : State) (base : Word) (k : Nat) (hk : k ≤ 16) (r : RegIx) :
    getV (loadRegs s base k) r = if r.toNat < k then memRead s.mem (effAddr base r.toNat) else getV s r := by
  induction k with
  | zero => simp [loadRegs]
  | succ k ih =>
    have hr : (regOfNat k).toNat = k := by simp [regOfNat]; omega
    rw [loadRegs, getV_setV, ih (by omega)]
    by_cases h : r = regOfNat k
    · subst h; simp [hr]
    · have hne : r.toNat ≠ k := fun e => h (BitVec.eq_of_toNat_eq (by rw [hr, e]))
      have : (r.toNat < k + 1) ↔ (r.toNat < k) := by omega
      simp [h, this]

end Sys2Proof.Machine
end

