-- ==== Sys2Proof/Laws/Step.lean ====
section
/-! SUPPORT. Everything one step of the whole machine can do, said once; and the Scheduler's part in the spec's own terms. -/

namespace Sys2Proof.Machine

/-! ## The Scheduler -/

theorem decayIf_true (b : Byte) : decayIf true b = decay b := by simp [decayIf, decay]

theorem decayIf_false (b : Byte) : decayIf false b = b := by
  unfold decayIf
  split
  · next h => exact h.symm
  · rfl

/-- A completed step inside a batch is only counted (R213). -/
theorem endOfStep_inside (p : Params) (s : State) (h : s.batchCtr + 1 < p.batch) :
    endOfStep p s = { s with batchCtr := s.batchCtr + 1 } := by
  have : decide (p.batch ≤ s.batchCtr + 1) = false := by simp; omega
  simp [endOfStep, this, decayIf_false]

/-- The completed step that fills a batch restarts the count, ticks the timers, then honours a stop request (R213). -/
theorem endOfStep_full (p : Params) (s : State) (h : p.batch ≤ s.batchCtr + 1) :
    endOfStep p s =
      { timerTick s with batchCtr := 0, runState := if s.stopReq then .notRunning else s.runState, stopReq := false } := by
  simp [endOfStep, h, decayIf_true, timerTick]

theorem endOfRun_eq (p : Params) (s : State) : endOfRun p s = if p.finalTick then timerTick s else s := by
  cases h : p.finalTick <;> simp [endOfRun, h, decayIf_true, decayIf_false, timerTick]

/-- What the Scheduler leaves alone. -/
theorem afterStep_frame (p : Params) (s : State) :
    { afterStep p s with
      delay := s.delay
      sound := s.sound
      batchCtr := s.batchCtr
      runState := s.runState
      stopReq := s.stopReq } = s := by
  unfold afterStep
  cases h : s.runState <;> simp [endOfStep, endOfRun, ← h]

/-! ## One step -/

theorem afterDue_nil (s : State) (h : s.turns = []) : afterDue s = s := by
  cases s; simp_all [afterDue]

/-- A step, by the turn that is due. -/
theorem stepWith_eq (p : Params) (s : State) :
    stepWith p s = match dueTurn s with
      | .interpreter => interpreterTurn p (afterDue s)
      | .event e => deliver e (afterDue s) := by
  unfold stepWith dueTurn
  cases h : s.turns with
  | nil => simp [afterDue_nil s h]
  | cons a l => cases a <;> simp [setTurns, afterDue, h]

/-- The state in which the instruction that is due runs: its turn used up, its word in `opcode` (R101). -/
def fetched (s : State) : State := setOpcode (afterDue s) (fetchWord s)

/-- Everything a step of the interpreter that answers a next state did: an instruction ran, or a fault was recorded. -/
theorem interpreterStep_next {p : Params} {s t : State} (h : interpreterStep p s = .next t) :
    (∃ i u, decodeWord (fetchWord s) = .ok i ∧ exec i (setOpcode s (fetchWord s)) = .next u
        ∧ t = if keyWait i (setOpcode s (fetchWord s)) then u else afterStep p u)
    ∨ ∃ f, t = recordFault f (setOpcode s (fetchWord s))
        ∧ ((∃ e, decodeWord (fetchWord s) = .error e ∧ f = .unmatchedOpcode s.pc (fetchWord s))
          ∨ ∃ i, decodeWord (fetchWord s) = .ok i ∧ exec i (setOpcode s (fetchWord s)) = .fault f) := by
  simp only [interpreterStep] at h
  cases hi : decodeWord (fetchWord s) with
  | error e => rw [hi] at h; cases h; exact .inr ⟨_, rfl, .inl ⟨e, rfl, rfl⟩⟩
  | ok i =>
    simp only [hi] at h
    cases hx : exec i (setOpcode s (fetchWord s)) with
    | next u => rw [hx] at h; cases h; exact .inl ⟨i, u, rfl, hx, rfl⟩
    | fault f => rw [hx] at h; cases h; exact .inr ⟨f, rfl, .inr ⟨i, rfl, hx⟩⟩
    | refused r => rw [hx] at h; cases h

/-- Everything an interpreter's turn that answers a next state did: it idled, or it took a step. -/
theorem interpreterTurn_next {p : Params} {s t : State} (h : interpreterTurn p s = .next t) :
    s.faulted = none ∧ ((s.runState ≠ .running ∧ t = s) ∨ (s.runState = .running ∧ interpreterStep p s = .next t)) := by
  unfold interpreterTurn at h
  split at h
  · cases h
  · next hf =>
    refine ⟨hf, ?_⟩
    split at h
    · next hr => exact .inr ⟨hr, h⟩
    · next hr => cases h; exact .inl ⟨by simp [hr], rfl⟩
    · next hr => cases h; exact .inl ⟨by simp [hr], rfl⟩

/-- Everything a step of the machine that answers a next state did: an event took effect, the interpreter idled, an instruction ran,
or a fault was recorded. -/
theorem stepWith_next {p : Params} {s t : State} (h : stepWith p s = .next t) :
    (∃ e, dueTurn s = .event e ∧ deliver e (afterDue s) = .next t)
    ∨ (dueTurn s = .interpreter ∧ s.faulted = none
        ∧ ((s.runState ≠ .running ∧ t = afterDue s)
          ∨ (s.runState = .running ∧ ∃ i u, decodeWord (fetchWord s) = .ok i ∧ exec i (fetched s) = .next u
              ∧ t = if keyWait i (fetched s) then u else afterStep p u)
          ∨ (s.runState = .running ∧ ∃ f, t = recordFault f (fetched s)
              ∧ ((∃ e, decodeWord (fetchWord s) = .error e ∧ f = .unmatchedOpcode s.pc (fetchWord s))
                ∨ ∃ i, decodeWord (fetchWord s) = .ok i ∧ exec i (fetched s) = .fault f)))) := by
  rw [stepWith_eq] at h
  cases hd : dueTurn s with
  | event e => rw [hd] at h; exact .inl ⟨e, rfl, h⟩
  | interpreter =>
    rw [hd] at h
    obtain ⟨hf, ⟨hr, ht⟩ | ⟨hr, hs⟩⟩ := interpreterTurn_next h
    · exact .inr ⟨rfl, hf, .inl ⟨hr, ht⟩⟩
    · rcases interpreterStep_next hs with hx | hx
      · exact .inr ⟨rfl, hf, .inr (.inl ⟨hr, hx⟩)⟩
      · exact .inr ⟨rfl, hf, .inr (.inr ⟨hr, hx⟩)⟩

end Sys2Proof.Machine
end

