-- ==== Sys2Proof/Tests/Slice0.lean ====
section
/-! SUPPORT. The model's own tests. Expected results come from the rules and the vectors of spec/95_test_vectors.md (the vector is
named in each comment) or by hand from the encoding tables; after them, a witness for the hypotheses of every obligation. -/

namespace Sys2Proof.Tests

open Sys2Proof Sys2Proof.Machine

/-! ## Helpers -/

/-- A machine that runs, otherwise as after reset. -/
def live : State := { State.reset with runState := .running }

/-- `live` with some registers set. -/
def regs (l : List (RegIx × Byte)) : State := l.foldl (fun s r => setV s r.1 r.2) live

/-- A view of the next state, if there is one. -/
def after {α : Type} (r : Result) (view : State → α) : Option α :=
  match r with
  | .next t => some (view t)
  | .fault _ => none
  | .refused _ => none

/-- The fault, if there is one. -/
def faultOf (r : Result) : Option Fault :=
  match r with
  | .next _ => none
  | .fault f => some f
  | .refused _ => none

/-- The parameters BATCH = k + 1, FINAL_TICK = 1. -/
def par (k : Nat) : Params := ⟨k, true⟩

/-- The parameters BATCH = k + 1, FINAL_TICK = 0. -/
def parNoTick (k : Nat) : Params := ⟨k, false⟩

/-- The whole step of the word `op` placed at the `pc` of `s`. -/
def run1 (s : State) (op : Word) : Result := stepWith (par 999) (placeWord s op)

/-- The clear framebuffer with some row words set; pixel (px, py) is bit px of row py. -/
def rows (l : List (Fin 32 × BitVec 64)) : FrameBuffer := l.foldl (fun f r => f.set r.1 r.2) fbClear

/-- Glyph 0 at (0, 0): the bytes F0 90 90 90 F0, the leftmost column in bit 0 of a row word. -/
def glyphZero : FrameBuffer := rows [(0, 0xF), (1, 0x9), (2, 0x9), (3, 0x9), (4, 0xF)]

/-! ## Decoding: words written out bit by bit from the formats of R82 and the map of R84 -/

theorem test_decode_family0 :
    decodeWord 0b0000000000000000#16 = .ok .halt ∧ decodeWord 0b0000000011100000#16 = .ok .cls
    ∧ decodeWord 0b0000000011101110#16 = .ok .ret ∧ decodeWord 0b0000000011000001#16 = .ok .nop00C1
    ∧ decodeWord 0b0000000011001111#16 = .ok .nop00CF ∧ decodeWord 0b0000000011111111#16 = .ok .nop00FF := by decide

theorem test_decode_placeholders_c :
    [0xC1#16, 0xC2#16, 0xC3#16, 0xC4#16, 0xC5#16, 0xC6#16, 0xC7#16].map decodeWord
      = [.ok .nop00C1, .ok .nop00C2, .ok .nop00C3, .ok .nop00C4, .ok .nop00C5, .ok .nop00C6, .ok .nop00C7]
    ∧ [0xC8#16, 0xC9#16, 0xCA#16, 0xCB#16, 0xCC#16, 0xCD#16, 0xCF#16].map decodeWord
      = [.ok .nop00C8, .ok .nop00C9, .ok .nop00CA, .ok .nop00CB, .ok .nop00CC, .ok .nop00CD, .ok .nop00CF] :=
  ⟨rfl, rfl⟩

theorem test_decode_placeholders_f :
    [0xF1#16, 0xF2#16, 0xF3#16, 0xF4#16, 0xF5#16, 0xF6#16, 0xF7#16].map decodeWord
      = [.ok .nop00F1, .ok .nop00F2, .ok .nop00F3, .ok .nop00F4, .ok .nop00F5, .ok .nop00F6, .ok .nop00F7]
    ∧ [0xF8#16, 0xF9#16, 0xFA#16, 0xFB#16, 0xFC#16, 0xFD#16, 0xFF#16].map decodeWord
      = [.ok .nop00F8, .ok .nop00F9, .ok .nop00FA, .ok .nop00FB, .ok .nop00FC, .ok .nop00FD, .ok .nop00FF] :=
  ⟨rfl, rfl⟩

theorem test_decode_control :
    decodeWord 0b0001101000110101#16 = .ok (.jp 0xA35) ∧ decodeWord 0b0010010111001010#16 = .ok (.call 0x5CA)
    ∧ decodeWord 0b0011011011010010#16 = .ok (.seImm 0x6 0xD2) ∧ decodeWord 0b0100011011010010#16 = .ok (.sneImm 0x6 0xD2)
    ∧ decodeWord 0b0101110010100000#16 = .ok (.seReg 0xC 0xA 0) ∧ decodeWord 0b1001110010100000#16 = .ok (.sneReg 0xC 0xA 0)
    ∧ decodeWord 0b1011001111110001#16 = .ok (.jpV0 0x3F1) := by decide

theorem test_decode_alu :
    decodeWord 0b0110000110001110#16 = .ok (.ldImm 0x1 0x8E) ∧ decodeWord 0b0111000110001110#16 = .ok (.addImm 0x1 0x8E)
    ∧ decodeWord 0b1000101001010000#16 = .ok (.ldReg 0xA 0x5) ∧ decodeWord 0b1000101001010001#16 = .ok (.orReg 0xA 0x5)
    ∧ decodeWord 0b1000101001010010#16 = .ok (.andReg 0xA 0x5) ∧ decodeWord 0b1000101001010011#16 = .ok (.xorReg 0xA 0x5)
    ∧ decodeWord 0b1000101001010100#16 = .ok (.addReg 0xA 0x5) ∧ decodeWord 0b1000101001010101#16 = .ok (.subReg 0xA 0x5)
    ∧ decodeWord 0b1000101001010110#16 = .ok (.shr 0xA 0x5) ∧ decodeWord 0b1000101001010111#16 = .ok (.subnReg 0xA 0x5)
    ∧ decodeWord 0b1000101001011110#16 = .ok (.shl 0xA 0x5) ∧ decodeWord 0b1100011101100001#16 = .ok (.rnd 0x7 0x61) := by
  decide

theorem test_decode_index_display_keypad :
    decodeWord 0b1010110100101110#16 = .ok (.ldI 0xD2E) ∧ decodeWord 0b1101101001011001#16 = .ok (.drw 0xA 0x5 0x9)
    ∧ decodeWord 0b1110101110011110#16 = .ok (.skp 0xB) ∧ decodeWord 0b1110101110100001#16 = .ok (.sknp 0xB)
    ∧ decodeWord 0b1111110100000111#16 = .ok (.ldVxDt 0xD) ∧ decodeWord 0b1111110100001010#16 = .ok (.ldVxK 0xD)
    ∧ decodeWord 0b1111110100010101#16 = .ok (.ldDtVx 0xD) ∧ decodeWord 0b1111110100011000#16 = .ok (.ldStVx 0xD)
    ∧ decodeWord 0b1111110100011110#16 = .ok (.addI 0xD) ∧ decodeWord 0b1111110100101001#16 = .ok (.ldF 0xD)
    ∧ decodeWord 0b1111110100110011#16 = .ok (.ldB 0xD) ∧ decodeWord 0b1111110101010101#16 = .ok (.ldMemVx 0xD)
    ∧ decodeWord 0b1111110101100101#16 = .ok (.ldVxMem 0xD) := by decide

/-- R55, R80: the byte at the lower address is the high one, and a decoder takes two bytes. -/
theorem test_decode_bytes :
    decodeBytes [0x6A, 0x2B, 0x77] = .ok (.ldImm 0xA 0x2B, [0x77]) ∧ encodeBytes (.ldImm 0xA 0x2B) = [0x6A, 0x2B]
    ∧ decodeBytes [0x6A] = .error .truncated ∧ decodeBytes [] = .error .truncated := by decide

/-- Vectors F3, F4 (R90): unmatched words, by family. -/
theorem test_decode_unmatched :
    [0x0001#16, 0x00C0#16, 0x00CE#16, 0x00F0#16, 0x00FE#16, 0x02E0#16, 0x0FFF#16].all
        (fun w => decide (decodeWord w = .error .unmatchedFamily0)) = true
    ∧ decodeWord 0x8018 = .error .unmatchedFamily8 ∧ decodeWord 0x812F = .error .unmatchedFamily8
    ∧ decodeWord 0xE000 = .error .unmatchedFamilyE ∧ decodeWord 0xE09F = .error .unmatchedFamilyE
    ∧ decodeWord 0xF000 = .error .unmatchedFamilyF ∧ decodeWord 0xF090 = .error .unmatchedFamilyF := by decide

/-- Smoke of WellFormed: an ill-formed word for each clause of the unmatched set, which the check refuses, and a well-formed
neighbour, which it takes. -/
theorem test_wellFormed_smoke :
    [0x0001#16, 0x00C0#16, 0x00CE#16, 0x00F0#16, 0x00FE#16, 0x01E0#16].any opcodeWellFormed = false
    ∧ opcodeWellFormed 0x00C0 = false ∧ opcodeWellFormed 0x00C1 = true
    ∧ opcodeWellFormed 0x8128 = false ∧ opcodeWellFormed 0x8127 = true
    ∧ opcodeWellFormed 0xE09F = false ∧ opcodeWellFormed 0xE09E = true
    ∧ opcodeWellFormed 0xF1FF = false ∧ opcodeWellFormed 0xF155 = true := by decide

/-- Smoke of the canonical spelling (R89): a non-zero ignored nibble is refused. -/
theorem test_canonical_smoke :
    (Instr.seReg 0x1 0x2 0x3).canonical = false ∧ (Instr.sneReg 0x1 0x2 0x3).canonical = false
    ∧ (Instr.seReg 0x1 0x2 0x0).canonical = true ∧ (Instr.sneReg 0x1 0x2 0x0).canonical = true := by decide

/-- The host's view of the decoder: bit 0 is the least significant bit of the one word. -/
theorem test_decodeTableWord :
    decodeTableWord 16 0x8AB4 = some (.addReg 0xA 0xB) ∧ decodeTableWord 16 0x8AB8 = none := by decide

/-! ## Fetch, HALT, NOP, unmatched words -/

/-- Vector F1 (R104). -/
theorem test_halt :
    after (run1 { live with pc := 4 } 0x0000) (fun t => (t.runState, t.opcode, t.pc)) = some (.halted, 0, 4) := by decide

/-- Vector F2 (R105). -/
theorem test_placeholder :
    after (run1 { live with pc := 0x10 } 0x00FB) (fun t => (t.pc, t.opcode, t.runState)) = some (0x12, 0x00FB, .running) := by
  decide

/-- Vectors F3, F4 (R106, R201): the step that fetches an unmatched word records a fault that names the pc and the word; `pc` stays
and `opcode` holds the word. -/
theorem test_unmatched :
    after (run1 { live with pc := 6 } 0x0001) (fun t => (t.faulted, t.pc, t.opcode)) = some (some (.unmatchedOpcode 6 0x0001), 6, 0x0001)
    ∧ after (run1 { live with pc := 6 } 0x8018) (fun t => t.faulted) = some (some (.unmatchedOpcode 6 0x8018)) := by decide

/-- R202: a recorded fault ends the run, no key event clears it, and a load does, keeping the keypad. -/
theorem test_fault_is_sticky_until_load :
    faultOf (stepWith (par 999) { live with faulted := some (.stackUnderflow 0) }) = some (.stackUnderflow 0)
    ∧ after (stepWith (par 999) { live with faulted := some (.stackUnderflow 0), turns := [.event (.keyDown .w)] })
        (fun t => (t.faulted, t.pressed)) = some (some (.stackUnderflow 0), some 0x5)
    ∧ after (stepWith (par 999)
        { live with faulted := some (.stackUnderflow 0), pressed := some 0x5, turns := [.event (.load [0x60, 0x05]), .event .run] })
        (fun t => (t.faulted, t.pressed, t.runState, t.turns, fetchWord t))
      = some (none, some 0x5, .notRunning, [.event .run], 0x6005) := by decide +kernel

/-- Vector F5 (R57, R102): at pc = 4095 the low byte is out of range and reads 0, with the font in place. -/
theorem test_fetch_at_the_last_byte :
    fetchWord { live with pc := 0xFFF } = 0x8000
    ∧ after (stepWith (par 999) { live with pc := 0xFFF }) (fun t => t.pc) = some 0x1001 := by decide

/-! ## Control transfer (vectors C1 to C20) -/

theorem test_jp : after (exec (.jp 0x208) { live with pc := 0x10 }) (fun t => t.pc) = some 0x008 := by decide

/-- C3: an address field below 0x200. -/
theorem test_jp_below_the_origin : after (exec (.jp 0x1FF) { live with pc := 0x10 }) (fun t => t.pc) = some 0xFFFF := by decide

/-- C4. -/
theorem test_call :
    after (exec (.call 0x20E) { live with pc := 6 }) (fun t => (t.stack[0], t.sp, t.pc)) = some (0x0008, 1, 0x00E) := by decide

/-- C5, C6: the 16th call is legal, the 17th is a fault. -/
theorem test_call_depth :
    after (exec (.call 0x300) { live with pc := 0x20, sp := 15 }) (fun t => (t.stack[15], t.sp, t.pc))
      = some (0x0022, 16, 0x100)
    ∧ faultOf (exec (.call 0x222) { live with pc := 0x20, sp := 16 }) = some (.stackOverflow 0x20) := by decide

/-- C7. -/
theorem test_ret :
    after (exec .ret { live with sp := 1, stack := live.stack.set 0 0x0008 }) (fun t => (t.pc, t.sp, t.stack[0]))
      = some (0x0008, 0, 0x0008) := by decide

/-- C8. -/
theorem test_ret_empty :
    faultOf (exec .ret live) = some (.stackUnderflow 0)
    ∧ after (run1 live 0x00EE) (fun t => (t.faulted, t.runState)) = some (some (.stackUnderflow 0), .running) := by decide

/-- C9. -/
theorem test_seImm :
    after (exec (.seImm 0x3 0x2A) { regs [(0x3, 0x2A)] with pc := 0x10 }) (fun t => t.pc) = some 0x14
    ∧ after (exec (.seImm 0x3 0x2A) { regs [(0x3, 0x2B)] with pc := 0x10 }) (fun t => t.pc) = some 0x12 := by decide

/-- C11. -/
theorem test_sneImm :
    after (exec (.sneImm 0x3 0x2A) { regs [(0x3, 0x2A)] with pc := 0x10 }) (fun t => t.pc) = some 0x12
    ∧ after (exec (.sneImm 0x3 0x2A) { live with pc := 0x10 }) (fun t => t.pc) = some 0x14 := by decide

/-- C12, C13. -/
theorem test_seReg :
    after (run1 { regs [(0x1, 7), (0x2, 7)] with pc := 0x10 } 0x5121) (fun t => t.pc) = some 0x14
    ∧ after (run1 { regs [(0x1, 7), (0x2, 8)] with pc := 0x10 } 0x5120) (fun t => t.pc) = some 0x12 := by decide

/-- C16, C17. -/
theorem test_sneReg :
    after (run1 { regs [(0x1, 7), (0x2, 8)] with pc := 0x10 } 0x9125) (fun t => t.pc) = some 0x14
    ∧ after (run1 { regs [(0x1, 7), (0x2, 7)] with pc := 0x10 } 0x9120) (fun t => t.pc) = some 0x12 := by decide

/-- C18, C19. -/
theorem test_jpV0 :
    after (exec (.jpV0 0x300) (regs [(0x0, 0x10), (0x3, 0x55)])) (fun t => t.pc) = some 0x110
    ∧ after (exec (.jpV0 0x1FE) (regs [(0x0, 4)])) (fun t => t.pc) = some 0x0002 := by decide

/-! ## Register load, arithmetic, logic, shifts, random (vectors A1 to A69) -/

/-- A51, A52. -/
theorem test_ldImm :
    after (exec (.ldImm 0x0 0x05) live) (fun t => (getV t 0x0, getV t 0xF, t.pc)) = some (5, 0, 2)
    ∧ after (exec (.ldImm 0xF 0xAB) live) (fun t => getV t 0xF) = some 0xAB := by decide

/-- A54, A57. -/
theorem test_addImm :
    after (exec (.addImm 0x0 0x02) (regs [(0x0, 0xFF)])) (fun t => (getV t 0x0, getV t 0xF, t.pc)) = some (1, 0, 2)
    ∧ after (exec (.addImm 0xF 0x02) (regs [(0xF, 1)])) (fun t => getV t 0xF) = some 3 := by decide

/-- A58. -/
theorem test_ldReg :
    after (exec (.ldReg 0x1 0x2) (regs [(0x2, 0x7E)])) (fun t => (getV t 0x1, getV t 0x2, t.pc)) = some (0x7E, 0x7E, 2) := by
  decide

/-- A60. -/
theorem test_orReg :
    after (exec (.orReg 0x1 0x2) (regs [(0x1, 0xF0), (0x2, 0x0F), (0xF, 1)])) (fun t => (getV t 0x1, getV t 0xF, t.pc))
      = some (0xFF, 1, 2) := by decide

/-- A61. -/
theorem test_andReg :
    after (exec (.andReg 0x1 0x2) (regs [(0x1, 0xF0), (0x2, 0x3C), (0xF, 1)])) (fun t => (getV t 0x1, getV t 0xF, t.pc))
      = some (0x30, 1, 2) := by decide

/-- A62. -/
theorem test_xorReg :
    after (exec (.xorReg 0x1 0x2) (regs [(0x1, 0xF0), (0x2, 0x3C), (0xF, 1)])) (fun t => (getV t 0x1, getV t 0xF, t.pc))
      = some (0xCC, 1, 2) := by decide

/-- A1, A5. -/
theorem test_addReg :
    after (exec (.addReg 0x0 0x1) (regs [(0x0, 0xFF), (0x1, 0x9D)])) (fun t => (getV t 0x0, getV t 0xF, t.pc)) = some (0x9C, 1, 2)
    ∧ after (exec (.addReg 0x0 0x1) (regs [(0x0, 0x64), (0x1, 0x9B)])) (fun t => (getV t 0x0, getV t 0xF)) = some (0xFF, 0) := by
  decide

/-- A8, A10. -/
theorem test_addReg_flag_register :
    after (exec (.addReg 0x1 0xF) (regs [(0x1, 5), (0xF, 3)])) (fun t => (getV t 0x1, getV t 0xF)) = some (8, 0)
    ∧ after (exec (.addReg 0xF 0x1) (regs [(0xF, 0xC8), (0x1, 0x64)])) (fun t => getV t 0xF) = some 0x2C := by decide

/-- A13, A15. -/
theorem test_subReg :
    after (exec (.subReg 0x1 0x2) (regs [(0x1, 5), (0x2, 7)])) (fun t => (getV t 0x1, getV t 0xF, t.pc)) = some (0xFE, 0, 2)
    ∧ after (exec (.subReg 0x1 0x2) (regs [(0x1, 7), (0x2, 7)])) (fun t => (getV t 0x1, getV t 0xF)) = some (0, 1) := by decide

/-- A20, A24, A25. -/
theorem test_subReg_flag_register :
    after (exec (.subReg 0x1 0xF) (regs [(0x1, 9)])) (fun t => (getV t 0x1, getV t 0xF)) = some (8, 1)
    ∧ after (exec (.subReg 0xF 0x1) (regs [(0xF, 9), (0x1, 3)])) (fun t => getV t 0xF) = some 0xFE
    ∧ after (exec (.subReg 0xF 0xF) (regs [(0xF, 7)])) (fun t => getV t 0xF) = some 0 := by decide

/-- A30. -/
theorem test_shr :
    after (exec (.shr 0x3 0x2) (regs [(0x3, 0x95), (0x2, 0xAA)])) (fun t => (getV t 0x3, getV t 0xF, getV t 0x2, t.pc))
      = some (0x4A, 1, 0xAA, 2) := by decide

/-- A31. -/
theorem test_shr_flag_register : after (exec (.shr 0xF 0x0) (regs [(0xF, 3)])) (fun t => getV t 0xF) = some 0 := by decide

/-- A33, A34. -/
theorem test_subnReg :
    after (exec (.subnReg 0x1 0x2) (regs [(0x1, 5), (0x2, 7)])) (fun t => (getV t 0x1, getV t 0xF, t.pc)) = some (2, 1, 2)
    ∧ after (exec (.subnReg 0x1 0x2) (regs [(0x1, 7), (0x2, 5)])) (fun t => (getV t 0x1, getV t 0xF)) = some (0xFE, 0) := by
  decide

/-- A36, A38, A40. -/
theorem test_subnReg_flag_register :
    after (exec (.subnReg 0x1 0xF) (regs [(0x1, 3), (0xF, 9)])) (fun t => (getV t 0x1, getV t 0xF)) = some (0xFE, 1)
    ∧ after (exec (.subnReg 0xF 0x1) (regs [(0xF, 2), (0x1, 7)])) (fun t => getV t 0xF) = some 6
    ∧ after (exec (.subnReg 0xF 0xF) (regs [(0xF, 7)])) (fun t => getV t 0xF) = some 0 := by decide

/-- A41, A42, A43: the flag is bit 6, not bit 7. -/
theorem test_shl :
    after (exec (.shl 0x3 0x0) (regs [(0x3, 0x95)])) (fun t => (getV t 0x3, getV t 0xF, t.pc)) = some (0x2A, 0, 2)
    ∧ after (exec (.shl 0x3 0x0) (regs [(0x3, 0x80)])) (fun t => (getV t 0x3, getV t 0xF)) = some (0, 0)
    ∧ after (exec (.shl 0x3 0x0) (regs [(0x3, 0x40)])) (fun t => (getV t 0x3, getV t 0xF)) = some (0x80, 1) := by decide

/-- A50. -/
theorem test_shl_flag_register : after (exec (.shl 0xF 0x0) (regs [(0xF, 0xFF)])) (fun t => getV t 0xF) = some 2 := by decide

/-- A69: for whatever byte the source answers, the mask is applied; one answer is used. -/
theorem test_rnd :
    after (exec (.rnd 0x2 0x0F) live) (fun t => (getV t 0x2, t.randCtr, t.pc)) = some (Config.randByte 0 &&& 0x0F, 1, 2) := rfl

/-! ## Index register and memory transfer (vectors M1 to M24) -/

/-- M1, M4. -/
theorem test_ldI :
    after (exec (.ldI 0x300) live) (fun t => (t.i, t.pc)) = some (0x100, 2)
    ∧ after (exec (.ldI 0x1FE) live) (fun t => t.i) = some 0xFFFE := by decide

/-- M6, M8. -/
theorem test_addI :
    after (exec (.addI 0x4) { regs [(0x4, 0x20)] with i := 0x100 }) (fun t => (t.i, t.pc)) = some (0x120, 2)
    ∧ after (exec (.addI 0x4) { regs [(0x4, 0x20)] with i := 0xFFF0 }) (fun t => (t.i, getV t 0xF)) = some (0x10, 0) := by decide

/-- M10, M11. -/
theorem test_ldF :
    after (exec (.ldF 0x0) (regs [(0x0, 0x0A)])) (fun t => (t.i, t.pc)) = some (0xFE2, 2)
    ∧ after (exec (.ldF 0x0) (regs [(0x0, 0xFF)])) (fun t => t.i) = some 0x14AB := by decide

/-- M12. -/
theorem test_ldB :
    after (exec (.ldB 0x0) { regs [(0x0, 156)] with i := 0x100 })
        (fun t => (memRead t.mem 0x100, memRead t.mem 0x101, memRead t.mem 0x102, t.i, t.pc))
      = some (1, 5, 6, 0x100, 2) := by decide

/-- M14: the ones digit is beyond RAM and dropped, the font bytes are overwritten. -/
theorem test_ldB_at_the_top :
    after (exec (.ldB 0x0) { regs [(0x0, 234)] with i := 0xFFE })
        (fun t => (memRead t.mem 0xFFE, memRead t.mem 0xFFF, memRead t.mem 0x1000, memRead t.mem 0))
      = some (2, 3, 0, 0) := by decide

/-- M16. -/
theorem test_ldMemVx :
    after (exec (.ldMemVx 0x2) { regs [(0x0, 1), (0x1, 5), (0x2, 6), (0x3, 9)] with i := 0x100 })
        (fun t => (memRead t.mem 0x100, memRead t.mem 0x101, memRead t.mem 0x102, memRead t.mem 0x103, t.i, t.pc))
      = some (1, 5, 6, 0, 0x100, 2) := by decide

/-- M18. -/
theorem test_ldMemVx_at_the_top :
    after (exec (.ldMemVx 0x1) { regs [(0x0, 0xAA), (0x1, 0xBB)] with i := 0xFFF })
        (fun t => (memRead t.mem 0xFFF, memRead t.mem 0, t.i))
      = some (0xAA, 0, 0xFFF) := by decide

/-- M22: the last two font bytes, then beyond RAM. -/
theorem test_ldVxMem :
    after (exec (.ldVxMem 0x3) { regs [(0x2, 0x22), (0x3, 0x33), (0x4, 0x44)] with i := 0xFFE })
        (fun t => (getV t 0x0, getV t 0x1, getV t 0x2, getV t 0x3, getV t 0x4, t.i, t.pc))
      = some (0x80, 0x80, 0, 0, 0x44, 0x1002, 2) := by decide

/-- M24: the addresses do not wrap, `I` does. -/
theorem test_ldVxMem_does_not_wrap :
    after (exec (.ldVxMem 0x3) { regs [(0x0, 1), (0x1, 2), (0x2, 3), (0x3, 4)] with
        i := 0xFFFE, mem := memWrite [] 0 0x77 })
        (fun t => (getV t 0x0, getV t 0x1, getV t 0x2, getV t 0x3, t.i))
      = some (0, 0, 0, 0, 0x0002) := by decide

/-! ## Display (vectors G1 to G18) -/

/-- G17, its first step. -/
theorem test_cls :
    after (exec .cls { regs [(0xF, 7)] with fb := Vector.replicate 32 (-1) })
        (fun t => (t.fb, t.presented, getV t 0xF, t.pc))
      = some (Vector.replicate 32 0, [Vector.replicate 32 0], 7, 2) := by decide

/-- G18: row 0 of the 16x16 sprite sets columns 0 and 15, row 1 columns 11 and 12, row 15 columns 0 to 7. -/
theorem test_drw_wide :
    after (exec (.drw 0x0 0x1 0x0) { regs [(0x0, 10), (0x1, 2)] with
        i := 0x100, mem := memWriteBytes (memWriteBytes [] 0x100 [0x80, 0x01, 0x00, 0x18]) 0x11E [0xFF, 0x00] })
        (fun t => (t.fb, getV t 0xF))
      = some (rows [(2, 1 <<< 10 ||| 1 <<< 25), (3, 1 <<< 21 ||| 1 <<< 22), (17, 0xFF <<< 10)], 0) := by decide +kernel

/-- G4 (of glyph 0 at (63, 31) one pixel is in range) and G7 (glyph 1 over glyph 0 collides). -/
theorem test_drw :
    after (exec (.drw 0x0 0x1 0x5) { regs [(0x0, 63), (0x1, 31)] with i := 0xFB0 })
        (fun t => (t.fb, getV t 0xF, t.pc)) = some (rows [(31, 1 <<< 63)], 0, 2)
    ∧ after (exec (.drw 0x0 0x0 0x5) { live with i := 0xFB5, fb := glyphZero })
        (fun t => (t.fb, getV t 0xF, t.presented.length))
      = some (rows [(0, 0b1011), (1, 0b1111), (2, 0b1101), (3, 0b1101), (4, 0b0001)], 1, 1) := by decide +kernel

/-! ## Keypad and timer instructions (vectors K1 to K14) -/

/-- K1, K3. -/
theorem test_skp :
    after (exec (.skp 0x2) { regs [(0x2, 5)] with pressed := some 5, pc := 0x20 }) (fun t => t.pc) = some 0x24
    ∧ after (exec (.skp 0x2) { regs [(0x2, 0x15)] with pressed := some 5, pc := 0x20 }) (fun t => t.pc) = some 0x22 := by decide

/-- K5, K6. -/
theorem test_sknp :
    after (exec (.sknp 0x2) { regs [(0x2, 5)] with pc := 0x20 }) (fun t => t.pc) = some 0x24
    ∧ after (exec (.sknp 0x2) { regs [(0x2, 5)] with pressed := some 5, pc := 0x20 }) (fun t => t.pc) = some 0x22 := by decide

/-- K12. -/
theorem test_ldVxDt :
    after (exec (.ldVxDt 0x1) { live with delay := 0x3C }) (fun t => (getV t 0x1, t.delay, t.pc)) = some (0x3C, 0x3C, 2) := by
  decide

/-- K8: the step that waits only fetches. -/
theorem test_ldVxK_waits :
    after (run1 live 0xF30A) (fun t => (t.pc, t.opcode, t.batchCtr, getV t 0x3)) = some (0, 0xF30A, 0, 0) := by decide

/-- K11. -/
theorem test_ldVxK_takes :
    after (run1 { regs [(0xF, 7)] with typed := some 0, pressed := some 9 } 0xFF0A)
        (fun t => (getV t 0xF, t.typed, t.pressed, t.pc, t.batchCtr))
      = some (0, none, some 9, 2, 1) := by decide

/-- K13. -/
theorem test_ldDtVx :
    after (exec (.ldDtVx 0x1) (regs [(0x1, 0x3C)])) (fun t => (t.delay, t.sound, t.pc)) = some (0x3C, 0, 2) := by decide

/-- K14. -/
theorem test_ldStVx :
    after (exec (.ldStVx 0x1) (regs [(0x1, 4)])) (fun t => (t.sound, t.delay, t.pc)) = some (4, 0, 2) := by decide

/-! ## Scheduler and events (vectors T1 to Z3, K15 to K20, L3 to L8) -/

/-- X1, X4: a completed step inside a batch is counted, the one that fills it ticks. -/
theorem test_batch :
    after (stepWith (par 1) { live with delay := 2 } ) (fun t => (t.runState, t.delay)) = some (.halted, 1)
    ∧ after (stepWith (par 1) (placeWord { live with delay := 2, sound := 0 } 0x6005)) (fun t => (t.batchCtr, t.delay)) = some (1, 2)
    ∧ after (stepWith (par 1) (placeWord { live with delay := 2, sound := 0, batchCtr := 1 } 0x6005))
        (fun t => (t.batchCtr, t.delay, t.sound, t.runState)) = some (0, 1, 0, .running) := by decide

/-- Y1, its halting step: the last decrement, or none. -/
theorem test_final_tick :
    after (stepWith (par 999) { live with delay := 10, sound := 10 }) (fun t => (t.delay, t.sound)) = some (9, 9)
    ∧ after (stepWith (parNoTick 999) { live with delay := 10, sound := 10 }) (fun t => (t.delay, t.sound)) = some (10, 10) := by
  decide

/-- Z1: the stop request is honoured after the decrement of the batch, and not before. -/
theorem test_stop :
    after (stepWith (par 3) (placeWord { live with stopReq := true, batchCtr := 2, delay := 5 } 0x1200))
        (fun t => (t.runState, t.stopReq, t.delay)) = some (.running, true, 5)
    ∧ after (stepWith (par 3) (placeWord { live with stopReq := true, batchCtr := 3, delay := 5 } 0x1200))
        (fun t => (t.runState, t.stopReq, t.delay, t.pc)) = some (.notRunning, false, 4, 0) := by decide

/-- Z3: from reset, a `Run`, then the first step fetches 0 at pc = 0. -/
theorem test_run_from_reset :
    after (stepWith (par 999) { State.reset with turns := [.event .run] }) (fun t => (t.runState, t.turns)) = some (.running, [])
    ∧ after (stepWith (par 999) live) (fun t => (t.runState, t.pc)) = some (.halted, 0) := by decide

/-- K17, K18, K19, K20. -/
theorem test_key_events :
    ((onKeyUp .k2 (onKeyUp .k1 (onKeyDown .k2 (onKeyDown .k1 live)))).pressed,
      (onKeyUp .k1 (onKeyDown .k2 (onKeyDown .k1 live))).typed) = (none, none)
    ∧ (onKeyUp .k2 (onKeyDown .k2 (onKeyUp .k1 (onKeyDown .k1 live)))).typed = some 0x2
    ∧ onKeyUp .k3 live = live ∧ onKeyDown (.other 80) live = live := by decide

/-- L4 and K21: reset, then the bytes; the keypad survives. -/
theorem test_load :
    after (deliver (.load [0x60, 0x07, 0x00]) { regs [(0x3, 9)] with runState := .halted, pc := 8, pressed := some 0x7 })
        (fun t => (memRead t.mem 0, memRead t.mem 1, memRead t.mem 0xFB0, getV t 0x3, t.pc, t.runState))
      = some (0x60, 0x07, 0xF0, 0, 0, .notRunning)
    ∧ after (deliver (.load [0x60, 0x07, 0x00]) { live with runState := .halted, pressed := some 0x7 }) (fun t => t.pressed)
      = some (some 0x7) := by decide +kernel

/-! ## Witnesses: every statement's hypotheses are met by a concrete state and operands -/

/-- `live` with a word at `pc`. -/
def at0 (op : Word) : State := placeWord live op

/-- A machine whose run ended in a fault. -/
def broken : State := { live with faulted := some (.stackUnderflow 0) }

/-- A machine whose next turn is the arrival of an event. -/
def due (s : State) (e : Event) : State := { s with turns := [.event e] }

theorem witness_EncodeUndoesDecode : decodeWord 0xD12F = .ok (.drw 0x1 0x2 0xF) := by decide

theorem witness_DecoderRefusesExactlyTheUnmatched :
    decodeWord 0x0FFF = .error .unmatchedFamily0 ∧ decodeWord 0x8FFF = .error .unmatchedFamily8
    ∧ decodeWord 0xEFFF = .error .unmatchedFamilyE ∧ decodeWord 0xFFFF = .error .unmatchedFamilyF := by decide

theorem witness_StepRunsTheDecodedInstruction :
    dueTurn (at0 0x6005) = .interpreter ∧ (at0 0x6005).faulted = none ∧ (at0 0x6005).runState = .running
    ∧ decodeWord (fetchWord (at0 0x6005)) = .ok (.ldImm 0x0 0x05) := by decide

theorem witness_OtherTurnsIdleOrDeliver :
    (dueTurn State.reset = .interpreter ∧ State.reset.faulted = none ∧ State.reset.runState ≠ .running)
    ∧ (dueTurn { live with runState := .halted } = .interpreter ∧ { live with runState := .halted }.runState ≠ .running)
    ∧ (dueTurn broken = .interpreter ∧ broken.faulted = some (.stackUnderflow 0)) ∧ dueTurn (due live .stop) = .event .stop := by
  decide

/-- Each clause at its boundary: the first address outside RAM, the last inside, and two neighbours. -/
theorem witness_ReadsAndWritesAreBoundsChecked :
    4096 ≤ 4096 ∧ 4095 < 4096 ∧ 4094 ≠ 4095 ∧ memRead (memWrite [] 4095 7) 4095 = 7 ∧ memWrite [] 4096 7 = [] := by decide

theorem witness_EveryStepKeepsTheInvariant :
    (State.Inv (par 0) live ∧ ∃ t, stepWith (par 0) live = .next t)
    ∧ (State.Inv Config.params State.reset ∧ step State.reset = .next State.reset) :=
  ⟨⟨⟨rfl, Nat.zero_lt_succ 0⟩, _, rfl⟩, ⟨rfl, Nat.zero_lt_succ _⟩, rfl⟩

/-- The last address below the font. -/
theorem witness_ResetLeavesTheStatedValues : 0xFAF < 0xFB0 ∧ memRead State.reset.mem 0xFAF = 0 := by decide

theorem witness_HaltStopsTheMachine :
    dueTurn live = .interpreter ∧ live.faulted = none ∧ live.runState = .running ∧ fetchWord live = 0x0000 := by decide

theorem witness_PlaceholdersOnlyAdvance : Instr.nop00C1 ∈ nopInstrs ∧ Instr.nop00FF ∈ nopInstrs := by decide

/-- Both clauses at their boundaries: 1, 16 and 0 calls outstanding. -/
theorem witness_RetPopsTheReturnAddress :
    0 < { live with sp := 1 }.sp.val ∧ 0 < { live with sp := 16 }.sp.val ∧ live.sp.val = 0 := by decide

/-- Both clauses at their boundaries: 0, 15 and 16 calls outstanding. -/
theorem witness_CallPushesAndJumps :
    live.sp.val < 16 ∧ { live with sp := 15 }.sp.val < 16 ∧ { live with sp := 16 }.sp.val = 16
    ∧ (1 : Fin 16).val ≠ live.sp.val := by decide

theorem witness_SkipsAgainstAByte : getV live 0x3 = 0x00 ∧ getV live 0x3 ≠ 0x2A := by decide

theorem witness_SkipsBetweenRegisters :
    getV live 0x1 = getV live 0x2 ∧ getV (regs [(0x1, 7)]) 0x1 ≠ getV (regs [(0x1, 7)]) 0x2 := by decide

theorem witness_ReturnUndoesCall :
    ∃ t, exec (.call 0x300) { live with sp := 15 } = .next t ∧ ({ t with pc := 0x40 } : State).sp = t.sp
      ∧ ({ t with pc := 0x40 } : State).stack = t.stack ∧ (0 : Fin 16).val ≠ { live with sp := 15 }.sp.val :=
  ⟨_, rfl, rfl, rfl, by decide⟩

/-- A register that is not the destination, for the loads, ADD, LD, OR, AND, XOR, RND and the timer read. -/
theorem witness_other_register : (0xF : RegIx) ≠ 0x1 ∧ (0x0 : RegIx) ≠ 0xF := by decide

/-- A destination that is not VF, and a third register, for ADD Vx, Vy (and SHR, SHL, which also have the clause x = 0xF). -/
theorem witness_AddRecordsTheCarry : (0x1 : RegIx) ≠ 0xF ∧ (0x2 : RegIx) ≠ 0x1 ∧ (0x2 : RegIx) ≠ 0xF := by decide

/-- The register clauses of SUB and SUBN: neither, y only, x only, both are 0xF. -/
theorem witness_SubRecordsNotBorrow :
    ((0x1 : RegIx) ≠ 0xF ∧ (0x2 : RegIx) ≠ 0xF) ∧ ((0x1 : RegIx) ≠ 0xF ∧ (0xF : RegIx) = 0xF)
    ∧ ((0xF : RegIx) = 0xF ∧ (0x2 : RegIx) ≠ 0xF) ∧ ((0xF : RegIx) = 0xF ∧ (0xF : RegIx) = 0xF) := by decide

/-- A state with I = 4095, for the block transfers at the top of RAM. -/
def top : State := { regs [(0x0, 0xAA), (0x1, 0xBB)] with i := 0xFFF }

/-- The last address in RAM, an address not stored to, and the first address outside. -/
theorem witness_BlockStoreWritesV0ToVx :
    ((0x0 : RegIx).toNat ≤ (0x1 : RegIx).toNat ∧ top.i.toNat + (0x0 : RegIx).toNat < 4096)
    ∧ 4094 ∉ storeAddrs (.ldMemVx 0x1) top ∧ 4095 ∈ storeAddrs (.ldMemVx 0x1) top ∧ 4096 ≤ 4096 := by decide

theorem witness_BlockLoadReadsV0ToVx :
    (0x1 : RegIx).toNat ≤ (0x1 : RegIx).toNat ∧ (0x1 : RegIx).toNat < (0x2 : RegIx).toNat := by decide

theorem witness_BlockStoreThenLoadRoundTrips : top.i.toNat + (0x0 : RegIx).toNat < 4096 := by decide

/-- Each clause at its boundary: px = 64, py = 32; (63, 31); and a neighbour of it. -/
theorem witness_PixelsAreBoundsChecked :
    (64 ≤ 64 ∨ 32 ≤ 31) ∧ (64 ≤ 63 ∨ 32 ≤ 32) ∧ 63 < 64 ∧ 31 < 32 ∧ ((62, 31) : Nat × Nat) ≠ (63, 31) := by decide

/-- Each clause at its boundary: the last column of a narrow sprite, and columns 7, 8 and 15 of a wide one. -/
theorem witness_SpriteLayout :
    ((0xF : Nibble) ≠ 0 ∧ 7 < 8) ∧ ((0x0 : Nibble) = 0 ∧ 7 < 8 ∧ 8 ≤ 8 ∧ 15 < 16) := by decide

/-- The last pixel of the grid, and a register the draw leaves. -/
theorem witness_DrawFlipsExactlyTheSprite : 63 < 64 ∧ 31 < 32 ∧ (0x1 : RegIx) ≠ 0xF := by decide

theorem witness_DrawTwiceRestoresTheScreen : (0x0 : RegIx) ≠ 0xF ∧ (0x1 : RegIx) ≠ 0xF := by decide

/-- A held key that is in Vx, one that is not, and no key. -/
theorem witness_KeySkips :
    (∃ k, { regs [(0x2, 5)] with pressed := some 5 }.pressed = some k ∧ k.toNat = (getV (regs [(0x2, 5)]) 0x2).toNat)
    ∧ (∀ k, { regs [(0x2, 0x15)] with pressed := some 5 }.pressed = some k → k.toNat ≠ (getV (regs [(0x2, 0x15)]) 0x2).toNat)
    ∧ (∀ k, live.pressed = some k → k.toNat ≠ (getV live 0x2).toNat) := by decide

theorem witness_KeyReadTakesTheTypedKey : { live with typed := some 0xF }.typed = some 0xF := by decide

theorem witness_KeyWaitHoldsTheMachine :
    dueTurn (at0 0xF30A) = .interpreter ∧ (at0 0xF30A).faulted = none ∧ (at0 0xF30A).runState = .running
    ∧ decodeWord (fetchWord (at0 0xF30A)) = .ok (.ldVxK 0x3) ∧ (at0 0xF30A).typed = none := by decide

/-- The five clauses: inside a batch of 2, filling it without and with a stop request, and halted with and without the last
decrement. -/
theorem witness_SchedulerTicksPerBatch :
    (live.runState = .running ∧ live.batchCtr + 1 < (par 1).batch)
    ∧ (live.runState = .running ∧ live.batchCtr + 1 = (par 0).batch ∧ live.stopReq = false)
    ∧ ({ live with stopReq := true, batchCtr := 1 }.batchCtr + 1 = (par 1).batch ∧ { live with stopReq := true }.stopReq = true)
    ∧ ({ live with runState := .halted }.runState = .halted ∧ (par 1).finalTick = true ∧ (parNoTick 1).finalTick = false) := by
  decide

theorem witness_KeyDownSetsPressed : keyMap .w = some 0x5 ∧ keyMap (.other 80) = none := by decide

theorem witness_KeyUpMovesPressedToTyped :
    (keyMap .w = some 0x5 ∧ { live with pressed := some 0x5 }.pressed = some 0x5)
    ∧ (keyMap .w = some 0x5 ∧ { live with pressed := some 0x6 }.pressed ≠ some 0x5) ∧ keyMap (.other 80) = none := by decide

theorem witness_KeypadLaws : keyMap .k1 = some 0x1 ∧ keyMap .k2 = some 0x2 ∧ (0x1 : Key) ≠ 0x2 := by decide

theorem witness_KeyMapIsTheTable : keyMap .v = some 0xF ∧ keyMap .v = some 0xF := by decide

/-- Not running, halted, faulted; and an active loop. -/
theorem witness_LoadResetsAndCopies :
    (State.reset.runState ≠ .running ∨ State.reset.faulted ≠ none)
    ∧ ({ live with runState := .halted }.runState ≠ .running ∨ { live with runState := .halted }.faulted ≠ none)
    ∧ (broken.runState ≠ .running ∨ broken.faulted ≠ none) ∧ (live.runState = .running ∧ live.faulted = none) := by decide

theorem witness_RunAndStopActInOneState :
    State.reset.runState = .notRunning ∧ live.runState = .running ∧ { live with runState := .halted }.runState = .halted := by
  decide

theorem witness_UnnamedRegistersStay :
    (∃ t, exec (.ldVxMem 0xE) live = .next t) ∧ 0xF ∉ writesV (.ldVxMem 0xE)
    ∧ (∃ t, exec (.subReg 0x1 0x2) live = .next t) ∧ 0x2 ∉ writesV (.subReg 0x1 0x2) :=
  ⟨⟨_, rfl⟩, by decide, ⟨_, rfl⟩, by decide⟩

theorem witness_UnstoredBytesStay :
    (∃ t, exec (.ldB 0x0) top = .next t) ∧ 4094 ∉ storeAddrs (.ldB 0x0) top ∧ (∃ t, exec .cls top = .next t)
    ∧ 4095 ∉ storeAddrs .cls top :=
  ⟨⟨_, rfl⟩, by decide, ⟨_, rfl⟩, by decide⟩

/-- One instruction that is none of those any clause excepts. -/
theorem witness_UnnamedStateStays :
    (∃ t, exec (.ldImm 0x1 0x2) live = .next t) ∧ writesI (.ldImm 0x1 0x2) = false ∧ usesStack (.ldImm 0x1 0x2) = false
    ∧ presents (.ldImm 0x1 0x2) = false ∧ (∀ x, Instr.ldImm 0x1 0x2 ≠ .ldDtVx x) ∧ (∀ x, Instr.ldImm 0x1 0x2 ≠ .ldStVx x)
    ∧ (∀ x, Instr.ldImm 0x1 0x2 ≠ .ldVxK x) ∧ Instr.ldImm 0x1 0x2 ≠ .halt ∧ (∀ x kk, Instr.ldImm 0x1 0x2 ≠ .rnd x kk) :=
  ⟨⟨_, rfl⟩, rfl, rfl, rfl, nofun, nofun, nofun, nofun, nofun⟩

/-- The three faults, each recorded from a state that breaches a duty; the fault answered; and the condition kept and cleared. -/
theorem witness_FaultsAreExactlyTheBreaches :
    (dueTurn (at0 0x8018) = .interpreter ∧ (at0 0x8018).faulted = none ∧ (at0 0x8018).runState = .running)
    ∧ after (stepWith (par 0) (at0 0x8018)) (fun t => t.faulted) = some (some (.unmatchedOpcode 0 0x8018))
    ∧ after (stepWith (par 0) { at0 0x2300 with sp := 16 }) (fun t => t.faulted) = some (some (.stackOverflow 0))
    ∧ after (stepWith (par 0) (at0 0x00EE)) (fun t => t.faulted) = some (some (.stackUnderflow 0))
    ∧ stepWith (par 0) broken = .fault (.stackUnderflow 0)
    ∧ (∃ t, stepWith (par 0) (due broken (.load [0x60])) = .next t ∧ dueTurn (due broken (.load [0x60])) = .event (.load [0x60]))
    ∧ (∃ t, stepWith (par 0) (due broken .loadFail) = .next t ∧ ∀ bytes, dueTurn (due broken .loadFail) ≠ .event (.load bytes)) :=
  ⟨⟨rfl, rfl, rfl⟩, rfl, rfl, rfl, rfl, ⟨_, rfl, rfl⟩, _, rfl, nofun⟩

theorem witness_breachesDuty :
    [at0 0x8018, { at0 0x2300 with sp := 16 }, at0 0x00EE].all breachesDuty = true
    ∧ [at0 0x8017, { at0 0x2300 with sp := 15 }, { at0 0x00EE with sp := 1 }].any breachesDuty = false := by decide

theorem witness_OnlyLoadsAreRefused :
    stepWith (par 0) (due live (.load [0x60])) = .refused .loadWhileRunning
    ∧ stepWith (par 0) (due live .loadFail) = .refused .loadWhileRunning := ⟨rfl, rfl⟩

/-- The four changes of the run state, each reached, the second from Halted and after a fault. -/
theorem witness_RunStateChangesAsTabled :
    (∃ t, stepWith (par 0) (due State.reset .run) = .next t ∧ t.runState ≠ State.reset.runState)
    ∧ (∃ t, stepWith (par 0) (due { live with runState := .halted } .loadFail) = .next t ∧ t.runState ≠ .halted)
    ∧ (∃ t, stepWith (par 0) (due broken (.load [0x60])) = .next t ∧ t.runState ≠ broken.runState)
    ∧ (∃ t, stepWith (par 0) live = .next t ∧ t.runState ≠ live.runState)
    ∧ (∃ t, stepWith (par 0) { at0 0x1200 with stopReq := true } = .next t ∧ t.runState ≠ .running) :=
  ⟨⟨_, rfl, nofun⟩, ⟨_, rfl, nofun⟩, ⟨_, rfl, nofun⟩, ⟨_, rfl, nofun⟩, ⟨_, rfl, nofun⟩⟩

/-- The four clauses: `pressed` set and cleared, `typed` set and cleared. -/
theorem witness_KeypadChangesOnlyByItsAgents :
    (∃ t, stepWith (par 0) (due live (.keyDown .w)) = .next t ∧ t.pressed = some 0x5 ∧ live.pressed ≠ some 0x5)
    ∧ (∃ t, stepWith (par 0) (due { live with pressed := some 0x5 } (.keyUp .w)) = .next t ∧ t.pressed = none
        ∧ t.typed = some 0x5 ∧ live.typed ≠ some 0x5)
    ∧ (∃ t, stepWith (par 0) { at0 0xF30A with typed := some 0x5 } = .next t ∧ t.typed = none
        ∧ { at0 0xF30A with typed := some 0x5 }.typed ≠ none) :=
  ⟨⟨_, rfl, rfl, nofun⟩, ⟨_, rfl, rfl, rfl, nofun⟩, ⟨_, rfl, rfl, nofun⟩⟩

/-- A byte changed by a store, and one changed by a load. -/
theorem witness_MemoryChangesOnlyByStores :
    (∃ t, stepWith (par 0) { at0 0xF055 with i := 0xFFF } = .next t ∧ memRead t.mem 4095 ≠ memRead (at0 0xF055).mem 4095)
    ∧ (∃ t, stepWith (par 0) (due State.reset (.load [0x60])) = .next t ∧ memRead t.mem 0 ≠ memRead State.reset.mem 0) :=
  ⟨⟨_, rfl, by decide +kernel⟩, ⟨_, rfl, by decide +kernel⟩⟩

/-- A step that presents, and one that does not. -/
theorem witness_OutputIsOneGridPerDrawOrClear :
    (dueTurn (at0 0x00E0) = .interpreter ∧ (at0 0x00E0).runState = .running ∧ decodeWord (fetchWord (at0 0x00E0)) = .ok .cls
      ∧ presents .cls = true ∧ ∃ t, stepWith (par 0) (at0 0x00E0) = .next t)
    ∧ (State.reset.runState ≠ .running ∧ ∃ t, stepWith (par 0) State.reset = .next t) :=
  ⟨⟨rfl, rfl, rfl, rfl, _, rfl⟩, nofun, _, rfl⟩

end Sys2Proof.Tests
end

section
/-! SUPPORT. Frames. R11 reads the table as a closed world: an instruction is a sequence of writes that its row names. This
is said once (`exec_permittedWrites`); each frame statement is then an induction over the writes. -/

namespace Sys2Proof.Machine

/-! ## The writes an instruction is made of -/

/-- `t` is reached from `s` by writes that instruction `i` may make: `pc` always, the registers of `writesV`, the bytes of
`storeAddrs`, and each other kind of state only by the instructions whose rows name it (R11). -/
inductive PermittedWrites (i : Instr) (s : State) : State → Prop where
  | refl : PermittedWrites i s s
  | setPc {t : State} {a : Word} : PermittedWrites i s t → PermittedWrites i s (setPc t a)
  | setV {t : State} {x : RegIx} {b : Byte} (hx : x ∈ writesV i) : PermittedWrites i s t → PermittedWrites i s (setV t x b)
  | storeByte {t : State} {a : Nat} {b : Byte} (ha : a ∈ storeAddrs i s) :
      PermittedWrites i s t → PermittedWrites i s (storeByte t a b)
  | setI {t : State} {a : Word} (hi : writesI i = true) : PermittedWrites i s t → PermittedWrites i s (setI t a)
  | setStack {t : State} {l : Vector Word 16} {n : Fin 17} (hi : usesStack i = true) :
      PermittedWrites i s t → PermittedWrites i s { t with stack := l, sp := n }
  | setFb {t : State} {f : FrameBuffer} (hi : presents i = true) : PermittedWrites i s t → PermittedWrites i s (setFb t f)
  | present {t : State} (hi : presents i = true) : PermittedWrites i s t → PermittedWrites i s (present t)
  | setDelay {t : State} {b : Byte} (hi : ∃ x, i = .ldDtVx x) : PermittedWrites i s t → PermittedWrites i s (setDelay t b)
  | setSound {t : State} {b : Byte} (hi : ∃ x, i = .ldStVx x) : PermittedWrites i s t → PermittedWrites i s (setSound t b)
  | setTyped {t : State} {k : Option Key} (hi : ∃ x, i = .ldVxK x) : PermittedWrites i s t → PermittedWrites i s (setTyped t k)
  | setRunState {t : State} {q : RunState} (hi : i = .halt) : PermittedWrites i s t → PermittedWrites i s (setRunState t q)
  | useRand {t : State} (hi : ∃ x kk, i = .rnd x kk) : PermittedWrites i s t → PermittedWrites i s (useRand t)

/-! ## Every instruction makes only permitted writes -/

theorem regOfNat_mem_regsUpTo {x : RegIx} {k : Nat} (h : k < x.toNat + 1) : regOfNat k ∈ regsUpTo x :=
  List.mem_map_of_mem (List.mem_range.mpr h)

/-- A block load writes its registers one by one (R165). -/
theorem loadRegs_permittedWrites {i : Instr} {s : State} (base : Word) :
    ∀ n, (∀ k < n, regOfNat k ∈ writesV i) → PermittedWrites i s (loadRegs s base n)
  | 0, _ => .refl
  | n + 1, h => .setV (h n n.lt_succ_self) (loadRegs_permittedWrites base n fun k hk => h k (by omega))

/-- A block store writes its bytes one by one (R164). -/
theorem storeRegs_permittedWrites {i : Instr} {s : State} (base : Word) :
    ∀ n, (∀ k < n, effAddr base k ∈ storeAddrs i s) → PermittedWrites i s (setMem s (storeRegs s base n))
  | 0, _ => .refl
  | n + 1, h => .storeByte (h n n.lt_succ_self) (storeRegs_permittedWrites base n fun k hk => h k (by omega))

theorem execRet_permittedWrites {s t : State} (h : execRet s = .next t) : PermittedWrites .ret s t := by
  unfold execRet at h
  cases hp : pop s with
  | none => rw [hp] at h; cases h
  | some r =>
    obtain ⟨_, _, -, hu⟩ := pop_some hp
    rw [hp] at h; cases h
    rw [hu]; exact .setPc (.setStack rfl .refl)

theorem execCall_permittedWrites {addr : Addr} {s t : State} (h : execCall addr s = .next t) :
    PermittedWrites (.call addr) s t := by
  unfold execCall at h
  cases hp : push s (s.pc + 2) with
  | none => rw [hp] at h; cases h
  | some u =>
    obtain ⟨_, hu⟩ := push_some hp
    rw [hp] at h; cases h
    rw [hu]; exact .setPc (.setStack rfl .refl)

/-- A key wait writes nothing (R107, R192). -/
theorem execLdVxK_permittedWrites {x : RegIx} {s t : State} (h : execLdVxK x s = .next t) :
    PermittedWrites (.ldVxK x) s t := by
  unfold execLdVxK at h
  cases hk : s.typed with
  | none => rw [hk] at h; cases h; exact .refl
  | some k => rw [hk] at h; cases h; exact .setPc (.setV List.mem_cons_self (.setTyped ⟨x, rfl⟩ .refl))

/-- The closed-world reading of the table (R11): all that an instruction changes, its row names. -/
theorem exec_permittedWrites {i : Instr} {s t : State} (h : exec i s = .next t) : PermittedWrites i s t := by
  cases i with
  | halt => cases h; exact .setRunState rfl .refl
  | cls => cases h; exact .setPc (.present rfl (.setFb rfl .refl))
  | drw => cases h; exact .setPc (.present rfl (.setFb rfl (.setV List.mem_cons_self .refl)))
  | ret => exact execRet_permittedWrites h
  | call => exact execCall_permittedWrites h
  | nop00C1 | nop00C2 | nop00C3 | nop00C4 | nop00C5 | nop00C6 | nop00C7
  | nop00C8 | nop00C9 | nop00CA | nop00CB | nop00CC | nop00CD | nop00CF
  | nop00F1 | nop00F2 | nop00F3 | nop00F4 | nop00F5 | nop00F6 | nop00F7
  | nop00F8 | nop00F9 | nop00FA | nop00FB | nop00FC | nop00FD | nop00FF
  | jp | jpV0 | seImm | sneImm | seReg | sneReg | skp | sknp => cases h; exact .setPc .refl
  | ldImm | addImm | ldReg | orReg | andReg | xorReg | ldVxDt =>
    cases h; exact .setPc (.setV List.mem_cons_self .refl)
  | addReg | subReg | shr | subnReg | shl =>
    cases h; exact .setPc (.setV List.mem_cons_self (.setV (List.mem_cons_of_mem _ List.mem_cons_self) .refl))
  | rnd x kk => cases h; exact .setPc (.setV List.mem_cons_self (.useRand ⟨x, kk, rfl⟩ .refl))
  | ldVxK => exact execLdVxK_permittedWrites h
  | ldDtVx x => cases h; exact .setPc (.setDelay ⟨x, rfl⟩ .refl)
  | ldStVx x => cases h; exact .setPc (.setSound ⟨x, rfl⟩ .refl)
  | ldI | addI | ldF => cases h; exact .setPc (.setI rfl .refl)
  | ldB =>
    cases h
    exact .setPc (.storeByte (by simp [storeAddrs]) (.storeByte (by simp [storeAddrs]) (.storeByte (by simp [storeAddrs]) .refl)))
  | ldMemVx =>
    cases h
    exact .setPc (storeRegs_permittedWrites _ _ fun k hk => List.mem_map_of_mem (List.mem_range.mpr hk))
  | ldVxMem =>
    cases h
    exact .setPc (.setI rfl (loadRegs_permittedWrites _ _ fun k hk => regOfNat_mem_regsUpTo hk))

/-! ## What permitted writes leave -/

/-- Of the permitted writes only the one to a register of `writesV` touches the register file. -/
theorem PermittedWrites.getV_eq {i : Instr} {s t : State} (h : PermittedWrites i s t) {r : RegIx} (hr : r ∉ writesV i) :
    getV t r = getV s r := by
  induction h with
  | refl => rfl
  | setV hx _ ih =>
    have hne := ne_of_mem_of_not_mem hx hr
    rw [getV_setV_ne _ _ _ _ hne.symm, ih]
  | setPc _ ih | storeByte _ _ ih | setI _ _ ih | setStack _ _ ih | setFb _ _ ih | present _ _ ih | setDelay _ _ ih
  | setSound _ _ ih | setTyped _ _ ih | setRunState _ _ ih | useRand _ _ ih => exact ih

/-- Of the permitted writes only the store to an address of `storeAddrs` touches memory. -/
theorem PermittedWrites.memRead_eq {i : Instr} {s t : State} (h : PermittedWrites i s t) {a : Nat}
    (ha : a ∉ storeAddrs i s) : memRead t.mem a = memRead s.mem a := by
  induction h with
  | refl => rfl
  | storeByte hb _ ih =>
    have hne := ne_of_mem_of_not_mem hb ha
    rw [storeByte_mem, memRead_memWrite_other _ _ _ _ hne.symm, ih]
  | setPc _ ih | setV _ _ ih | setI _ _ ih | setStack _ _ ih | setFb _ _ ih | present _ _ ih | setDelay _ _ ih
  | setSound _ _ ih | setTyped _ _ ih | setRunState _ _ ih | useRand _ _ ih => exact ih

/-! ## The frame statements -/

/-- Settles O52: exec makes only permitted writes, and those keep the registers outside `writesV`. -/
theorem unnamedRegistersStay : Obligations.UnnamedRegistersStay :=
  fun _ _ _ _ h hr => (exec_permittedWrites h).getV_eq hr

/-- Settles O53: exec makes only permitted writes, and those keep the bytes outside `storeAddrs`. -/
theorem unstoredBytesStay : Obligations.UnstoredBytesStay :=
  fun _ _ _ _ h ha => (exec_permittedWrites h).memRead_eq ha

/-- Settles O54: by induction on the permitted writes. Each write outside `pc`, registers and memory makes the premise of its own
clause false, and leaves the fields of every other clause as they were. -/
theorem unnamedStateStays : Obligations.UnnamedStateStays := by
  intro i s t h
  replace h := exec_permittedWrites h
  induction h with
  | refl => simp
  | setPc _ ih | setV _ _ ih | storeByte _ _ ih => exact ih
  | setI hi _ ih | setStack hi _ ih | setFb hi _ ih | present hi _ ih | setRunState hi _ ih => simpa [hi] using ih
  | setDelay hi _ ih | setSound hi _ ih | setTyped hi _ ih => obtain ⟨x, rfl⟩ := hi; simpa using ih
  | useRand hi _ ih => obtain ⟨x, kk, rfl⟩ := hi; simpa using ih

end Sys2Proof.Machine
end

section
/-! SUPPORT. The reset state (R34), and the invariant of every step (R32, R213). An instruction is a sequence of permitted writes,
each of which keeps the invariant; the Scheduler restarts the count before it reaches `BATCH`; an event keeps memory and the count, or
starts from reset. -/

namespace Sys2Proof.Machine

/-! ## The reset state -/

@[simp] theorem getV_reset (r : RegIx) : getV State.reset r = 0 := Vector.getElem_replicate r.isLt

theorem reset_stack_getElem (k : Fin 16) : State.reset.stack[k] = 0 := Vector.getElem_replicate k.isLt

@[simp] theorem fbRead_reset (px py : Nat) : fbRead State.reset.fb px py = false := by
  unfold fbRead State.reset
  split
  · rw [Vector.getElem_replicate]; exact BitVec.getLsbD_zero
  · rfl

/-- Nothing is listed at reset, so every address reads as reset leaves it (R34). -/
theorem memRead_reset (a : Nat) : memRead State.reset.mem a = if a < memSize then resetByte a else 0 := rfl

theorem resetByte_below_font {a : Nat} (h : a < fontBase) : resetByte a = 0 := if_neg (Nat.not_le.mpr h)

theorem memRead_reset_below_font {a : Nat} (h : a < fontBase) : memRead State.reset.mem a = 0 := by
  rw [memRead_reset, resetByte_below_font h, ite_self]

/-! ## The invariant through an instruction and the Scheduler -/

theorem reset_inv (p : Params) : State.reset.Inv p := ⟨memWf_reset, p.batchPred.succ_pos⟩

/-- Of the permitted writes only the store of a byte touches what the invariant speaks of, and it keeps memory canonical. -/
theorem PermittedWrites.inv {i : Instr} {s t : State} {p : Params} (h : PermittedWrites i s t) (hs : s.Inv p) : t.Inv p := by
  induction h with
  | refl => exact hs
  | storeByte _ _ ih =>
    obtain ⟨hm, hb⟩ := ih
    exact ⟨memWf_storeByte _ _ hm, hb⟩
  | setPc _ ih | setV _ _ ih | setI _ _ ih | setStack _ _ ih | setFb _ _ ih | present _ _ ih | setDelay _ _ ih
  | setSound _ _ ih | setTyped _ _ ih | setRunState _ _ ih | useRand _ _ ih => exact ih

/-- After a completed step the count is below `BATCH`, whatever it was before: it is one more, or restarted (R213). -/
theorem endOfStep_inv {s : State} (p : Params) (hm : memWf s.mem = true) : (endOfStep p s).Inv p := by
  rcases Nat.lt_or_ge (s.batchCtr + 1) p.batch with hlt | hge
  · rw [endOfStep_inside p s hlt]; exact ⟨hm, hlt⟩
  · rw [endOfStep_full p s hge]; exact ⟨hm, p.batchPred.succ_pos⟩

theorem afterStep_inv {p : Params} {s : State} (h : s.Inv p) : (afterStep p s).Inv p := by
  unfold afterStep
  cases s.runState with
  | running => exact endOfStep_inv p h.1
  | halted | notRunning => exact h

/-! ## The invariant through an event -/

/-- A reset brings memory and the count to their reset values, whatever they were (R240). -/
theorem resetMachine_inv (p : Params) (s : State) : (resetMachine s).Inv p := reset_inv p

theorem loadRom_inv (p : Params) (bytes : List Byte) (s : State) : (loadRom bytes s).Inv p :=
  ⟨memWf_memWriteBytes _ _ (memWf_memWriteBytes _ _ memWf_reset), p.batchPred.succ_pos⟩

theorem onRun_inv {p : Params} {s : State} (h : s.Inv p) : (onRun s).Inv p := by
  unfold onRun
  cases s.runState with
  | notRunning => exact ⟨h.1, p.batchPred.succ_pos⟩
  | running | halted => exact h

theorem onStop_inv {p : Params} {s : State} (h : s.Inv p) : (onStop s).Inv p := by
  unfold onStop
  cases s.runState <;> exact h

theorem onKeyDown_inv {p : Params} {s : State} (code : PlatformKey) (h : s.Inv p) : (onKeyDown code s).Inv p := by
  unfold onKeyDown
  cases keyMap code <;> exact h

theorem onKeyUp_inv {p : Params} {s : State} (code : PlatformKey) (h : s.Inv p) : (onKeyUp code s).Inv p := by
  unfold onKeyUp
  cases keyMap code with
  | none => exact h
  | some k => dsimp only; split <;> exact h

/-- Everything an event that is not refused does (R225): a load is accepted when no run loop is active (R69), the others always. -/
theorem deliver_next {e : Event} {s t : State} (h : deliver e s = .next t) :
    (∃ bytes, e = .load bytes ∧ loopActive s = false ∧ t = loadRom bytes s)
    ∨ (e = .loadFail ∧ loopActive s = false ∧ t = resetMachine s)
    ∨ (e = .run ∧ t = onRun s) ∨ (e = .stop ∧ t = onStop s)
    ∨ (∃ code, e = .keyDown code ∧ t = onKeyDown code s) ∨ ∃ code, e = .keyUp code ∧ t = onKeyUp code s := by
  cases e with
  | load | loadFail => cases ha : loopActive s <;> simp_all [deliver]
  | run | stop | keyDown | keyUp => cases h; simp

theorem deliver_inv {p : Params} {e : Event} {s t : State} (h : s.Inv p) (hd : deliver e s = .next t) : t.Inv p := by
  rcases deliver_next hd with ⟨bytes, -, -, rfl⟩ | ⟨-, -, rfl⟩ | ⟨-, rfl⟩ | ⟨-, rfl⟩ | ⟨code, -, rfl⟩ | ⟨code, -, rfl⟩
  · exact loadRom_inv p bytes s
  · exact resetMachine_inv p s
  · exact onRun_inv h
  · exact onStop_inv h
  · exact onKeyDown_inv code h
  · exact onKeyUp_inv code h

/-! ## The invariant through a step -/

/-- The four things a step that answers a next state can have done, each of which keeps the invariant. -/
theorem stepWith_inv {p : Params} {s t : State} (h : s.Inv p) (hs : stepWith p s = .next t) : t.Inv p := by
  have hdue : (afterDue s).Inv p := h
  have hfetched : (fetched s).Inv p := h
  rcases stepWith_next hs with ⟨e, -, hd⟩ | ⟨-, -, ⟨-, rfl⟩ | ⟨-, i, u, -, hx, rfl⟩ | ⟨-, f, rfl, -⟩⟩
  · exact deliver_inv hdue hd
  · exact hdue
  · have hu : u.Inv p := (exec_permittedWrites hx).inv hfetched
    split
    · exact hu
    · exact afterStep_inv hu
  · exact hfetched

/-! ## The statements -/

/-- Settles O10: by the cases of `stepWith_next`; an instruction's case rests on its permitted writes. -/
theorem everyStepKeepsTheInvariant : Obligations.EveryStepKeepsTheInvariant :=
  ⟨fun _ _ _ => stepWith_inv, fun _ _ => stepWith_inv⟩

/-- Settles O11: no cell is listed at reset, and `BATCH` is at least 1. -/
theorem resetMeetsTheInvariant : Obligations.ResetMeetsTheInvariant := reset_inv

/-- Settles O12: the scalar fields by `State.reset` itself, the arrays element by element, RAM through `resetByte`, the font's
80 bytes by evaluation. -/
theorem resetLeavesTheStatedValues : Obligations.ResetLeavesTheStatedValues :=
  ⟨getV_reset, rfl, rfl, rfl, reset_stack_getElem, rfl, rfl, rfl, fbRead_reset, rfl, rfl, rfl, rfl, rfl, rfl,
    fun _ => memRead_reset_below_font, by decide, by decide⟩

end Sys2Proof.Machine
end

section
/-! SUPPORT. Memory: the fetched word (R55), what a step does to RAM (R59, R63), and the refusals (R69). A byte moves only where a load
resets RAM or an instruction stores, so each other part of a step gets one equation for `mem`; a step refuses only where `deliver` does. -/

namespace Sys2Proof.Machine

/-! ## Fetch -/

theorem fetchWord_toNat (s : State) :
    (fetchWord s).toNat = (memRead s.mem s.pc.toNat).toNat * 256 + (memRead s.mem (s.pc.toNat + 1)).toNat :=
  toNat_append_eq _ _

/-- Both bytes of a placed word lie in RAM, whatever `pc` was. -/
theorem placePc_succ_lt (s : State) : (placePc s).toNat + 1 < memSize := by
  unfold placePc
  split
  · assumption
  · decide

theorem fetchWord_placeWord (s : State) (w : Word) : fetchWord (placeWord s w) = w := by
  have ha := placePc_succ_lt s
  have hhi : memRead (placeWord s w).mem (placePc s).toNat = hiByte w := by
    rw [placeWord, memRead_memWrite_other _ _ _ _ (Nat.ne_of_lt (Nat.lt_succ_self _)),
      memRead_memWrite_same _ _ _ (Nat.lt_of_succ_lt ha)]
  have hlo : memRead (placeWord s w).mem ((placePc s).toNat + 1) = loByte w := memRead_memWrite_same _ _ _ ha
  calc fetchWord (placeWord s w) = wordOfBytes (hiByte w) (loByte w) := congrArg₂ wordOfBytes hhi hlo
    _ = w := wordOfBytes_hi_lo w

/-- All 16 bits of a word are placed. -/
theorem withFetchWord_toNat (s : State) (w : Word) : s.withFetchWord 16 w.toNat = placeWord s w := by
  rw [State.withFetchWord, Nat.mod_eq_of_lt w.isLt, BitVec.ofNat_toNat, BitVec.setWidth_eq]

/-! ## What each part of a step leaves of memory -/

@[simp] theorem afterStep_mem (p : Params) (s : State) : (afterStep p s).mem = s.mem :=
  (congrArg State.mem (afterStep_frame p s) :)

@[simp] theorem onRun_mem (s : State) : (onRun s).mem = s.mem := by
  unfold onRun
  cases s.runState <;> rfl

@[simp] theorem onStop_mem (s : State) : (onStop s).mem = s.mem := by
  unfold onStop
  cases s.runState <;> rfl

@[simp] theorem onKeyDown_mem (code : PlatformKey) (s : State) : (onKeyDown code s).mem = s.mem := by
  unfold onKeyDown
  cases keyMap code <;> rfl

@[simp] theorem onKeyUp_mem (code : PlatformKey) (s : State) : (onKeyUp code s).mem = s.mem := by
  unfold onKeyUp
  cases keyMap code with
  | none => rfl
  | some k => dsimp only; split <;> rfl

/-- Of the events only the two loads touch memory (R63). -/
theorem deliver_mem {e : Event} {s t : State} (h : deliver e s = .next t) :
    (e = .loadFail ∨ ∃ bytes, e = .load bytes) ∨ t.mem = s.mem := by
  rcases deliver_next h with ⟨bytes, he, -, -⟩ | ⟨he, -, -⟩ | ⟨-, rfl⟩ | ⟨-, rfl⟩ | ⟨code, -, rfl⟩ | ⟨code, -, rfl⟩
  · exact .inl (.inr ⟨bytes, he⟩)
  · exact .inl (.inl he)
  · exact .inr (onRun_mem s)
  · exact .inr (onStop_mem s)
  · exact .inr (onKeyDown_mem code s)
  · exact .inr (onKeyUp_mem code s)

/-- The addresses of an instruction's stores come from `I`, which the fetch leaves as it is. -/
theorem storeAddrs_fetched (i : Instr) (s : State) : storeAddrs i (fetched s) = storeAddrs i s := rfl

/-- An address that reads differently in two memories lies in RAM: outside, both read 0 (R51). -/
theorem lt_memSize_of_memRead_ne {m m' : Memory} {a : Nat} (h : memRead m a ≠ memRead m' a) : a < memSize :=
  Nat.lt_of_not_le fun ha => h ((memRead_outside m a ha).trans (memRead_outside m' a ha).symm)

/-- What can have changed a byte in a step (R59, R63). -/
theorem stepWith_memRead_ne {p : Params} {s t : State} {a : Nat} (h : stepWith p s = .next t)
    (hne : memRead t.mem a ≠ memRead s.mem a) :
    (dueTurn s = .event .loadFail ∨ ∃ bytes, dueTurn s = .event (.load bytes))
    ∨ (dueTurn s = .interpreter ∧ s.runState = .running ∧ ∃ i, decodeWord (fetchWord s) = .ok i ∧ a ∈ storeAddrs i s) := by
  rcases stepWith_next h with ⟨e, hdue, hd⟩ | ⟨hdue, -, ⟨-, rfl⟩ | ⟨hr, i, u, hi, hx, rfl⟩ | ⟨-, f, rfl, -⟩⟩
  · rcases deliver_mem hd with (rfl | ⟨bytes, rfl⟩) | hm
    · exact .inl (.inl hdue)
    · exact .inl (.inr ⟨bytes, hdue⟩)
    · exact absurd (congrArg (memRead · a) hm) hne
  · exact absurd rfl hne
  · refine .inr ⟨hdue, hr, i, hi, ?_⟩
    by_contra ha
    have hu : memRead u.mem a = memRead s.mem a := (exec_permittedWrites hx).memRead_eq (storeAddrs_fetched i s ▸ ha)
    split at hne
    · exact hne hu
    · exact hne (by rw [afterStep_mem, hu])
  · exact absurd rfl hne

/-! ## Refusals -/

/-- Every instruction of the table has a meaning: it answers a next state, or a fault where the call stack is full or empty. -/
theorem exec_ne_refused (i : Instr) (s : State) (r : Refusal) : exec i s ≠ .refused r := by
  cases i with
  | ret => unfold exec execRet; cases pop s <;> nofun
  | call => unfold exec execCall; cases push s (s.pc + 2) <;> nofun
  | ldVxK => unfold exec execLdVxK; cases s.typed <;> nofun
  | _ => nofun

theorem interpreterStep_ne_refused (p : Params) (s : State) (r : Refusal) : interpreterStep p s ≠ .refused r := by
  simp only [interpreterStep]
  cases decodeWord (fetchWord s) with
  | error e => nofun
  | ok i =>
    dsimp only
    cases hx : exec i (setOpcode s (fetchWord s)) with
    | next u | fault f => nofun
    | refused r' => exact absurd hx (exec_ne_refused _ _ _)

theorem interpreterTurn_ne_refused (p : Params) (s : State) (r : Refusal) : interpreterTurn p s ≠ .refused r := by
  unfold interpreterTurn
  cases s.faulted with
  | some f => nofun
  | none =>
    cases s.runState with
    | running => exact interpreterStep_ne_refused p s r
    | notRunning | halted => nofun

theorem loopActive_iff (s : State) : loopActive s = true ↔ s.runState = .running ∧ s.faulted = none := by
  simp [loopActive]

/-- Everything known of an event that is refused: it is a load against an active run loop (R69). -/
theorem deliver_refused {e : Event} {s : State} {r : Refusal} (h : deliver e s = .refused r) :
    r = .loadWhileRunning ∧ loopActive s = true ∧ (e = .loadFail ∨ ∃ bytes, e = .load bytes) := by
  cases e with
  | load | loadFail => cases ha : loopActive s <;> simp_all [deliver]
  | run | stop | keyDown | keyUp => cases h

/-- Everything known of a step that refuses: the turn was an event's, and the event was refused. -/
theorem stepWith_refused {p : Params} {s : State} {r : Refusal} (h : stepWith p s = .refused r) :
    ∃ e, dueTurn s = .event e ∧ deliver e (afterDue s) = .refused r := by
  rw [stepWith_eq] at h
  cases hd : dueTurn s with
  | interpreter => rw [hd] at h; exact absurd h (interpreterTurn_ne_refused _ _ _)
  | event e => rw [hd] at h; exact ⟨e, rfl, h⟩

/-! ## The statements -/

/-- Settles O59: a byte that reads differently lies in RAM, and of the things a step can do only a load and a store to that byte
change it. -/
theorem memoryChangesOnlyByStores : Obligations.MemoryChangesOnlyByStores :=
  fun _ _ _ _ h hne => ⟨lt_memSize_of_memRead_ne hne, stepWith_memRead_ne h hne⟩

/-- Settles O9: the rules of reads and writes, inside RAM and outside. -/
theorem readsAndWritesAreBoundsChecked : Obligations.ReadsAndWritesAreBoundsChecked :=
  fun m a a' b => ⟨fun h => ⟨memRead_outside m a h, memWrite_outside m a b h⟩, memRead_memWrite_same m a b,
    memRead_memWrite_other m a a' b⟩

/-- Settles O56: no instruction refuses, so a step that does has a refused event due. -/
theorem onlyLoadsAreRefused : Obligations.OnlyLoadsAreRefused := by
  refine ⟨exec_ne_refused, fun p s r h => ?_⟩
  obtain ⟨e, hdue, hd⟩ := stepWith_refused h
  obtain ⟨hr, hactive, he⟩ := deliver_refused hd
  obtain ⟨hrun, hnofault⟩ := (loopActive_iff _).mp hactive
  rw [hdue]
  exact ⟨hr, hrun, hnofault, he.imp (congrArg _) fun ⟨bytes, hb⟩ => ⟨bytes, congrArg _ hb⟩⟩

/-- Settles O7: an opcode is its two bytes side by side, the first of them high. -/
theorem fetchIsBigEndian : Obligations.FetchIsBigEndian := fetchWord_toNat

/-- Settles O8: the hook places the word's two bytes at `pc`, inside RAM, and sets the other three fields itself. -/
theorem placedWordIsFetchedNext : Obligations.PlacedWordIsFetchedNext := by
  intro s w
  rw [withFetchWord_toNat]
  exact ⟨fetchWord_placeWord s w, rfl, rfl, rfl⟩

end Sys2Proof.Machine
end

section
/-! SUPPORT. Decoder and encoder (spec 30_encoding.md R80 to R96). Forward, the decoder reads back the fields of the format that the
encoder wrote. Backward, every word is its own fields side by side, so the row that a selector picks encodes to the word again. -/

namespace Sys2Proof

/-! ## The fields of a format read back (R81, R82) -/

@[simp] theorem opFamily_formatA (f : BitVec 4) (a : Addr) : opFamily (f ++ a) = f := BitVec.extractLsb'_append_eq_left
@[simp] theorem opAddr_formatA (f : BitVec 4) (a : Addr) : opAddr (f ++ a) = a := BitVec.extractLsb'_append_eq_right

@[simp] theorem opX_formatXK (f : BitVec 4) (x : RegIx) (kk : Byte) : opX (f ++ x ++ kk) = x := by
  rw [opX, BitVec.extractLsb'_append_eq_of_le (by decide)]
  exact BitVec.extractLsb'_append_eq_right
@[simp] theorem opFamily_formatXK (f : BitVec 4) (x : RegIx) (kk : Byte) : opFamily (f ++ x ++ kk) = f := by
  rw [opFamily, BitVec.extractLsb'_append_eq_of_le (by decide)]
  exact BitVec.extractLsb'_append_eq_left
@[simp] theorem opKK_formatXK (f : BitVec 4) (x : RegIx) (kk : Byte) : opKK (f ++ x ++ kk) = kk :=
  BitVec.extractLsb'_append_eq_right

@[simp] theorem opFamily_formatXYN (f : BitVec 4) (x y : RegIx) (n : Nibble) : opFamily (f ++ x ++ y ++ n) = f := by
  rw [opFamily, BitVec.extractLsb'_append_eq_of_le (by decide), BitVec.extractLsb'_append_eq_of_le (by decide)]
  exact BitVec.extractLsb'_append_eq_left
@[simp] theorem opX_formatXYN (f : BitVec 4) (x y : RegIx) (n : Nibble) : opX (f ++ x ++ y ++ n) = x := by
  rw [opX, BitVec.extractLsb'_append_eq_of_le (by decide), BitVec.extractLsb'_append_eq_of_le (by decide)]
  exact BitVec.extractLsb'_append_eq_right
@[simp] theorem opY_formatXYN (f : BitVec 4) (x y : RegIx) (n : Nibble) : opY (f ++ x ++ y ++ n) = y := by
  rw [opY, BitVec.extractLsb'_append_eq_of_le (by decide)]
  exact BitVec.extractLsb'_append_eq_right
@[simp] theorem opN_formatXYN (f : BitVec 4) (x y : RegIx) (n : Nibble) : opN (f ++ x ++ y ++ n) = n :=
  BitVec.extractLsb'_append_eq_right

/-! ## A word is its fields side by side (R81, R82) -/

theorem formatA_eq {w : Word} {f : BitVec 4} (hf : opFamily w = f) : f ++ opAddr w = w := by
  subst hf
  exact BitVec.extractLsb'_append_extractLsb'

theorem formatXK_eq {w : Word} {f : BitVec 4} {kk : Byte} (hf : opFamily w = f) (hk : opKK w = kk) :
    f ++ opX w ++ kk = w := by
  subst hf hk
  rw [show opFamily w ++ opX w = w.extractLsb' 8 8 from BitVec.extractLsb'_append_extractLsb'_eq_extractLsb' rfl]
  exact BitVec.extractLsb'_append_extractLsb'

theorem formatXYN_eq {w : Word} {f : BitVec 4} {n : Nibble} (hf : opFamily w = f) (hn : opN w = n) :
    f ++ opX w ++ opY w ++ n = w := by
  subst hf hn
  rw [show opFamily w ++ opX w = w.extractLsb' 8 8 from BitVec.extractLsb'_append_extractLsb'_eq_extractLsb' rfl,
    show w.extractLsb' 8 8 ++ opY w = w.extractLsb' 4 12 from BitVec.extractLsb'_append_extractLsb'_eq_extractLsb' rfl]
  exact BitVec.extractLsb'_append_extractLsb'

/-! ## Decode after encode -/

/-- By the shape of the opcode: a literal word; a format without a selector, read back field by field; a format whose selector the
second level reads (R85 to R88). -/
theorem decodeWord_encode (i : Instr) : decodeWord (encode i) = .ok i := by
  cases i with
  | halt | cls | ret
  | nop00C1 | nop00C2 | nop00C3 | nop00C4 | nop00C5 | nop00C6 | nop00C7
  | nop00C8 | nop00C9 | nop00CA | nop00CB | nop00CC | nop00CD | nop00CF
  | nop00F1 | nop00F2 | nop00F3 | nop00F4 | nop00F5 | nop00F6 | nop00F7
  | nop00F8 | nop00F9 | nop00FA | nop00FB | nop00FC | nop00FD | nop00FF => rfl
  | jp | call | ldI | jpV0 | seImm | sneImm | ldImm | addImm | rnd | seReg | sneReg | drw => simp [encode, decodeWord]
  | ldReg | orReg | andReg | xorReg | addReg | subReg | shr | subnReg | shl => simp [encode, decodeWord, decodeFamily8]
  | skp | sknp => simp [encode, decodeWord, decodeFamilyE]
  | ldVxDt | ldVxK | ldDtVx | ldStVx | addI | ldF | ldB | ldMemVx | ldVxMem => simp [encode, decodeWord, decodeFamilyF]

theorem decodeBytes_encodeBytes_append (i : Instr) (rest : List Byte) :
    decodeBytes (encodeBytes i ++ rest) = .ok (i, rest) := by
  change (decodeWord (wordOfBytes (hiByte (encode i)) (loByte (encode i)))).map (fun i => (i, rest)) = _
  rw [wordOfBytes_hi_lo, decodeWord_encode]
  rfl

/-! ## What the decoder answers (R84 to R91) -/

/-- The family whose words an error of the decoder is about (R90); a byte list too short for a word has none. -/
def DecodeError.family : DecodeError → Option Nat
  | .unmatchedFamily0 => some 0x0
  | .unmatchedFamily8 => some 0x8
  | .unmatchedFamilyE => some 0xE
  | .unmatchedFamilyF => some 0xF
  | .truncated => none

/-- An answer that fits the word `w`: an instruction whose opcode is `w`, or the error of the family of `w` on an unmatched word. -/
def FitsWord (w : Word) : Except DecodeError Instr → Prop
  | .ok i => encode i = w
  | .error e => opcodeUnmatched w = true ∧ e.family = some (w.toNat / 4096)

theorem toNat_div_of_opFamily {w : Word} {f : BitVec 4} (hf : opFamily w = f) : w.toNat / 4096 = f.toNat := by
  rw [← toNat_opFamily, hf]

theorem fitsWord_error {w : Word} {f : BitVec 4} {e : DecodeError} (hf : opFamily w = f) (he : e.family = some f.toNat)
    (hu : opcodeUnmatched w = true) : FitsWord w (.error e) :=
  ⟨hu, by rw [he, toNat_div_of_opFamily hf]⟩

/-- The rows of family 0x0 are whole words; a word that is none of them is in the unmatched set (R85, R90). -/
theorem decodeFamily0_fits {w : Word} (hf : opFamily w = 0x0#4) : FitsWord w (decodeFamily0 w) := by
  unfold decodeFamily0
  split
  case h_32 =>
    refine fitsWord_error hf rfl ?_
    simp_all [opcodeUnmatched, toNat_div_of_opFamily hf, BitVec.toNat_eq]
    omega
  all_goals rfl

theorem decodeFamily8_fits {w : Word} (hf : opFamily w = 0x8#4) : FitsWord w (decodeFamily8 w) := by
  unfold decodeFamily8
  split
  case h_10 =>
    have hn : 8 ≤ (opN w).toNat ∧ (opN w).toNat ≠ 0xE := by
      simp only [imp_false] at *
      bv_omega
    refine fitsWord_error hf rfl ?_
    simp [opcodeUnmatched, toNat_div_of_opFamily hf, ← toNat_opN]
    omega
  all_goals next hn => exact formatXYN_eq hf hn

theorem decodeFamilyE_fits {w : Word} (hf : opFamily w = 0xE#4) : FitsWord w (decodeFamilyE w) := by
  unfold decodeFamilyE
  split
  case h_3 =>
    refine fitsWord_error hf rfl ?_
    simp_all [opcodeUnmatched, toNat_div_of_opFamily hf, ← toNat_opKK, BitVec.toNat_eq]
  all_goals next hk => exact formatXK_eq hf hk

theorem decodeFamilyF_fits {w : Word} (hf : opFamily w = 0xF#4) : FitsWord w (decodeFamilyF w) := by
  unfold decodeFamilyF
  split
  case h_10 =>
    refine fitsWord_error hf rfl ?_
    simp_all [opcodeUnmatched, toNat_div_of_opFamily hf, ← toNat_opKK, BitVec.toNat_eq]
  all_goals next hk => exact formatXK_eq hf hk

/-- Everything the decoder can answer on a word, by family: with a second level, without one by format, and 0xF as the one left. -/
theorem decodeWord_fits (w : Word) : FitsWord w (decodeWord w) := by
  unfold decodeWord
  split
  case h_1 hf => exact decodeFamily0_fits hf
  case h_9 hf => exact decodeFamily8_fits hf
  case h_15 hf => exact decodeFamilyE_fits hf
  case h_2 hf | h_3 hf | h_11 hf | h_12 hf => exact formatA_eq hf
  case h_4 hf | h_5 hf | h_7 hf | h_8 hf | h_13 hf => exact formatXK_eq hf rfl
  case h_6 hf | h_10 hf | h_14 hf => exact formatXYN_eq hf rfl
  case h_16 =>
    have hf : opFamily w = 0xF#4 := by
      generalize opFamily w = f at *
      decide +revert
    exact decodeFamilyF_fits hf

theorem encode_of_decodeWord {w : Word} {i : Instr} (h : decodeWord w = .ok i) : encode i = w := by
  have hw := decodeWord_fits w
  rw [h] at hw
  exact hw

theorem opcodeUnmatched_of_decodeWord {w : Word} {e : DecodeError} (h : decodeWord w = .error e) :
    opcodeUnmatched w = true ∧ e.family = some (w.toNat / 4096) := by
  have hw := decodeWord_fits w
  rw [h] at hw
  exact hw

theorem family_of_decodeWord {w : Word} {e : DecodeError} {f : Nat} (h : decodeWord w = .error e) (he : e.family = some f) :
    w.toNat / 4096 = f :=
  Option.some.inj ((opcodeUnmatched_of_decodeWord h).2.symm.trans he)

/-! ## The opcodes of the table lie outside the unmatched set (R90) -/

open Laws in
theorem opcodeUnmatched_encode (i : Instr) : opcodeUnmatched (encode i) = false := by
  cases i with
  | halt | cls | ret
  | nop00C1 | nop00C2 | nop00C3 | nop00C4 | nop00C5 | nop00C6 | nop00C7
  | nop00C8 | nop00C9 | nop00CA | nop00CB | nop00CC | nop00CD | nop00CF
  | nop00F1 | nop00F2 | nop00F3 | nop00F4 | nop00F5 | nop00F6 | nop00F7
  | nop00F8 | nop00F9 | nop00FA | nop00FB | nop00FC | nop00FD | nop00FF => rfl
  | jp | call | ldI | jpV0 => exact EncodeInMap.formatA _ (by decide)
  | seImm | sneImm | ldImm | addImm | rnd => exact EncodeInMap.formatXK _ _ (by decide)
  | seReg | sneReg | drw => exact EncodeInMap.formatXYN _ _ _ (by decide)
  | ldReg | orReg | andReg | xorReg | addReg | subReg | shr | subnReg | shl => exact EncodeInMap.format8 _ _ (by decide)
  | skp | sknp => exact EncodeInMap.formatE _ (by decide)
  | ldVxDt | ldVxK | ldDtVx | ldStVx | addI | ldF | ldB | ldMemVx | ldVxMem => exact EncodeInMap.formatF _ (by decide)

theorem decodeWord_error_iff (w : Word) : (∃ e, decodeWord w = .error e) ↔ opcodeUnmatched w = true := by
  constructor
  · rintro ⟨e, h⟩
    exact (opcodeUnmatched_of_decodeWord h).1
  · intro hu
    cases h : decodeWord w with
    | error e => exact ⟨e, rfl⟩
    | ok i =>
      have hm := opcodeUnmatched_encode i
      rw [encode_of_decodeWord h, hu] at hm
      cases hm

/-! ## The statements -/

/-- Settles O1: the decoder reads back the fields of each format, and the two bytes of a word are that word again. -/
theorem decodeUndoesEncode : Obligations.DecodeUndoesEncode := ⟨decodeWord_encode, decodeBytes_encodeBytes_append⟩

/-- Settles O2: an instruction the decoder answers fits its word, bit by bit. -/
theorem encodeUndoesDecode : Obligations.EncodeUndoesDecode := fun _ _ => encode_of_decodeWord

/-- Settles O3: an error comes with an unmatched word of its family, and no opcode of the table is unmatched. -/
theorem decoderRefusesExactlyTheUnmatched : Obligations.DecoderRefusesExactlyTheUnmatched :=
  fun w => ⟨decodeWord_error_iff w, (family_of_decodeWord · rfl), (family_of_decodeWord · rfl), (family_of_decodeWord · rfl),
    (family_of_decodeWord · rfl), fun h => nomatch (opcodeUnmatched_of_decodeWord h).2⟩

/-- Settles O4: each word is evaluated by the decoder. -/
theorem sampleWordsDecode : Obligations.SampleWordsDecode := by
  unfold Obligations.SampleWordsDecode
  decide

end Sys2Proof
end

section
/-! SUPPORT. Fetch and dispatch (spec 40_fetch_dispatch.md R100 to R108). Whose turn it is, and whether a run is on, fix what a step is:
one equation for each kind of turn. And what moves the run state, said once for each part of a step. -/

namespace Sys2Proof.Machine

/-! ## A step, by the kind of turn (R100, R101, R202) -/

theorem stepWith_of_event {p : Params} {s : State} {e : Event} (hdue : dueTurn s = .event e) :
    stepWith p s = deliver e (afterDue s) := by
  rw [stepWith_eq, hdue]

theorem stepWith_of_interpreter {p : Params} {s : State} (hdue : dueTurn s = .interpreter) :
    stepWith p s = interpreterTurn p (afterDue s) := by
  rw [stepWith_eq, hdue]

theorem interpreterTurn_of_faulted {p : Params} {s : State} {f : Fault} (hf : s.faulted = some f) :
    interpreterTurn p s = .fault f := by
  rw [interpreterTurn, hf]; rfl

theorem interpreterTurn_of_running {p : Params} {s : State} (hf : s.faulted = none) (hr : s.runState = .running) :
    interpreterTurn p s = interpreterStep p s := by
  rw [interpreterTurn, hf, hr]

theorem interpreterTurn_of_not_running {p : Params} {s : State} (hf : s.faulted = none) (hr : s.runState ≠ .running) :
    interpreterTurn p s = .next s := by
  rw [interpreterTurn, hf]
  cases hs : s.runState with
  | running => exact absurd hs hr
  | notRunning | halted => rfl

/-- What an interpreter's step answers once the meaning of the word has answered `r` from `s1`: the Scheduler's part unless the
instruction waits, the fault recorded, or the refusal (R101, R202, R213, R214). -/
def settleExec (p : Params) (i : Instr) (s1 : State) (r : Result) : Result :=
  match r with
  | .next t => .next (if keyWait i s1 then t else afterStep p t)
  | .fault f => .next (recordFault f s1)
  | .refused r => .refused r

theorem stepWith_of_decodeWord {p : Params} {s : State} {i : Instr} (hdue : dueTurn s = .interpreter) (hf : s.faulted = none)
    (hr : s.runState = .running) (hi : decodeWord (fetchWord s) = .ok i) :
    stepWith p s = settleExec p i (fetched s) (exec i (fetched s)) := by
  have hi' : decodeWord (fetchWord (afterDue s)) = .ok i := hi
  rw [stepWith_of_interpreter hdue, interpreterTurn_of_running (s := afterDue s) hf hr]
  simp only [interpreterStep, hi']
  rfl

/-! ## HALT and the placeholders (R104, R105) -/

theorem decodeWord_halt : decodeWord 0x0000 = .ok .halt := decodeWord_encode .halt

theorem exec_halt (s : State) : exec .halt s = .next (setRunState s .halted) := rfl

/-- The whole step of HALT: the halted state, after the last decrement if there is one (R216). -/
theorem stepWith_halt {p : Params} {s : State} (hdue : dueTurn s = .interpreter) (hf : s.faulted = none)
    (hr : s.runState = .running) (hw : fetchWord s = 0x0000) :
    stepWith p s = .next (endOfRun p (setRunState (fetched s) .halted)) :=
  stepWith_of_decodeWord hdue hf hr (hw ▸ decodeWord_halt)

theorem decayIf_eq (c : Bool) (b : Byte) : decayIf c b = if c then decay b else b := by
  cases c with
  | true => exact decayIf_true b
  | false => exact decayIf_false b

/-- All 28 placeholders have one meaning. -/
theorem exec_nop {i : Instr} (hi : i ∈ nopInstrs) (s : State) : exec i s = .next (advance s) := by
  fin_cases hi <;> rfl

/-! ## What moves the run state (R100, R102) -/

/-- Of the instructions only HALT touches the run state, and none touches what the Scheduler stops by. -/
theorem exec_keeps_run {i : Instr} {s u : State} (h : exec i s = .next u) (hi : i ≠ .halt) :
    u.runState = s.runState ∧ u.batchCtr = s.batchCtr ∧ u.stopReq = s.stopReq := by
  obtain ⟨-, -, -, -, -, -, hrun, -, -, -, hbatch, hstop, -, -⟩ := unnamedStateStays i s u h
  exact ⟨hrun hi, hbatch, hstop⟩

/-- The Scheduler moves the run state only to stop: in `Running`, on request, at the end of a batch (R213, R215). -/
theorem afterStep_runState_ne {p : Params} {s : State} (hne : (afterStep p s).runState ≠ s.runState) :
    s.stopReq = true ∧ p.batch ≤ s.batchCtr + 1 ∧ (afterStep p s).runState = .notRunning := by
  unfold afterStep at *
  cases hr : s.runState with
  | halted | notRunning => rw [hr] at hne; exact absurd hr hne
  | running =>
    simp only [hr] at hne ⊢
    rcases Nat.lt_or_ge (s.batchCtr + 1) p.batch with hlt | hfull
    · rw [endOfStep_inside p s hlt] at hne; exact absurd hr hne
    · rw [endOfStep_full p s hfull] at hne ⊢
      cases hq : s.stopReq with
      | false => rw [hq] at hne; exact absurd hr hne
      | true => exact ⟨rfl, hfull, rfl⟩

theorem onRun_runState_ne {s : State} (hne : (onRun s).runState ≠ s.runState) :
    s.runState = .notRunning ∧ (onRun s).runState = .running := by
  unfold onRun at *
  cases hr : s.runState with
  | notRunning => exact ⟨rfl, rfl⟩
  | running | halted => rw [hr] at hne; exact absurd hr hne

@[simp] theorem onStop_runState (s : State) : (onStop s).runState = s.runState := by
  unfold onStop
  split <;> rfl

@[simp] theorem onKeyDown_runState (code : PlatformKey) (s : State) : (onKeyDown code s).runState = s.runState := by
  unfold onKeyDown
  cases keyMap code <;> rfl

@[simp] theorem onKeyUp_runState (code : PlatformKey) (s : State) : (onKeyUp code s).runState = s.runState := by
  unfold onKeyUp
  cases keyMap code with
  | none => rfl
  | some k => dsimp only; split <;> rfl

/-- No run loop is active: no run is on, it has halted, or a fault ended it (R69, R202). -/
theorem halted_or_faulted_of_not_loopActive {s : State} (ha : loopActive s = false) (hr : s.runState ≠ .notRunning) :
    s.runState = .halted ∨ s.faulted ≠ none := by
  cases hs : s.runState with
  | halted => exact .inl rfl
  | notRunning => exact absurd hs hr
  | running =>
    refine .inr fun hf => ?_
    rw [(loopActive_iff s).mpr ⟨hs, hf⟩] at ha
    cases ha

/-- Of the events only `Run` and the two loads move the run state. -/
theorem deliver_runState_ne {e : Event} {s t : State} (h : deliver e s = .next t) (hne : t.runState ≠ s.runState) :
    (e = .run ∧ s.runState = .notRunning ∧ t.runState = .running)
    ∨ ((e = .loadFail ∨ ∃ bytes, e = .load bytes) ∧ (s.runState = .halted ∨ s.faulted ≠ none) ∧ t.runState = .notRunning) := by
  rcases deliver_next h with ⟨bytes, he, ha, rfl⟩ | ⟨he, ha, rfl⟩ | ⟨he, rfl⟩ | ⟨-, rfl⟩ | ⟨code, -, rfl⟩ | ⟨code, -, rfl⟩
  · exact .inr ⟨.inr ⟨bytes, he⟩, halted_or_faulted_of_not_loopActive ha hne.symm, rfl⟩
  · exact .inr ⟨.inl he, halted_or_faulted_of_not_loopActive ha hne.symm, rfl⟩
  · exact .inl ⟨he, onRun_runState_ne hne⟩
  · exact absurd (onStop_runState s) hne
  · exact absurd (onKeyDown_runState code s) hne
  · exact absurd (onKeyUp_runState code s) hne

/-- An instruction other than HALT moves the run state only by way of the Scheduler's part. -/
theorem ranInstr_runState_ne {p : Params} {i : Instr} {s u : State} (hx : exec i s = .next u) (hi : i ≠ .halt)
    (hne : (if keyWait i s then u else afterStep p u).runState ≠ s.runState) :
    s.stopReq = true ∧ p.batch ≤ s.batchCtr + 1 ∧ (if keyWait i s then u else afterStep p u).runState = .notRunning := by
  obtain ⟨hrun, hbatch, hstop⟩ := exec_keeps_run hx hi
  by_cases hk : keyWait i s
  · rw [if_pos hk] at hne
    exact absurd hrun hne
  · rw [if_neg hk, ← hrun] at hne
    rw [if_neg hk, ← hbatch, ← hstop]
    exact afterStep_runState_ne hne

/-! ## The statements -/

/-- Settles O57: by the cases of `stepWith_next`. An event moves the run state by a run or a load, an instruction by being HALT or by
the Scheduler's part after it; an idle turn and a recorded fault leave it. -/
theorem runStateChangesAsTabled : Obligations.RunStateChangesAsTabled := by
  intro p s t h hne
  rcases stepWith_next h with ⟨e, hdue, hd⟩ | ⟨hdue, hf, ⟨-, rfl⟩ | ⟨hr, i, u, hi, hx, rfl⟩ | ⟨-, f, rfl, -⟩⟩
  · rw [hdue]
    rcases deliver_runState_ne hd hne with ⟨rfl, hrun⟩ | ⟨he, hload⟩
    · exact .inl ⟨rfl, hrun⟩
    · exact .inr (.inl ⟨he.imp (congrArg _) fun ⟨bytes, hb⟩ => ⟨bytes, congrArg _ hb⟩, hload⟩)
  · exact absurd rfl hne
  · refine .inr (.inr ?_)
    by_cases hhalt : i = .halt
    · subst hhalt
      have hw : fetchWord s = 0x0000 := (encode_of_decodeWord hi).symm
      cases hx
      exact .inl ⟨hdue, hf, hr, hw, rfl⟩
    · exact .inr ⟨hdue, hf, hr, ranInstr_runState_ne (s := fetched s) hx hhalt hne⟩
  · exact absurd rfl hne

/-- Settles O13: HALT writes the run state only; in the whole step the Scheduler adds the last decrement, if there is one. -/
theorem haltStopsTheMachine : Obligations.HaltStopsTheMachine :=
  ⟨decodeWord_halt, fun s => ⟨_, exec_halt s, rfl, rfl⟩,
    fun _ _ hdue hf hr hw => ⟨_, stepWith_halt hdue hf hr hw, rfl, rfl, hw, decayIf_eq _ _, decayIf_eq _ _, rfl⟩⟩

/-- Settles O5: the turn is used up, the word is fetched and decoded, and `settleExec` is what the statement spells out. -/
theorem stepRunsTheDecodedInstruction : Obligations.StepRunsTheDecodedInstruction := by
  refine ⟨fun _ => rfl, fun p s i hdue hf hr hi => ?_⟩
  rw [stepWith_of_decodeWord hdue hf hr hi]
  rfl

/-- Settles O6: one equation of `stepWith` for each kind of turn. -/
theorem otherTurnsIdleOrDeliver : Obligations.OtherTurnsIdleOrDeliver := by
  refine fun p s => ⟨fun hdue hf hr => ?_, fun f hdue hf => ?_, fun e => stepWith_of_event⟩
  · rw [stepWith_of_interpreter hdue]
    exact interpreterTurn_of_not_running hf hr
  · rw [stepWith_of_interpreter hdue]
    exact interpreterTurn_of_faulted hf

/-- Settles O14: the words by evaluating the encoder, the decoder by its inverse, the effect by the one meaning of a placeholder. -/
theorem placeholdersOnlyAdvance : Obligations.PlaceholdersOnlyAdvance :=
  ⟨rfl, fun i _ => decodeWord_encode i, fun _ hi s => ⟨_, exec_nop hi s, pcMoved_of_eq 2 rfl (by decide), rfl⟩⟩

end Sys2Proof.Machine
end

section
/-! SUPPORT. Control transfer (spec 41_control_flow.md R120 to R128). RET and CALL have one equation for each side of their bounds
check; a jump, and each of the two ways of a skip, moves `pc` and nothing else. -/

namespace Sys2Proof.Machine

/-! ## The call stack (R120, R122) -/

/-- The state after a return: `pc` is the popped entry, which stays in the array. -/
def returned (s : State) (h : 0 < s.sp.val) : State :=
  { s with pc := s.stack[s.sp.val - 1]'(by have := s.sp.isLt; omega), sp := ⟨s.sp.val - 1, by have := s.sp.isLt; omega⟩ }

/-- The state after a call: the address of the next instruction is pushed, and `pc` is the translated address. -/
def called (addr : Addr) (s : State) (h : s.sp.val < 16) : State :=
  { s with pc := translateAddr addr, stack := s.stack.set s.sp.val (s.pc + 2) h, sp := ⟨s.sp.val + 1, by omega⟩ }

theorem exec_ret_outstanding {s : State} (h : 0 < s.sp.val) : exec .ret s = .next (returned s h) := by
  simp only [exec, execRet, pop, dif_pos h, setPc, returned]

theorem exec_ret_empty {s : State} (h : s.sp.val = 0) : exec .ret s = .fault (.stackUnderflow s.pc) := by
  simp only [exec, execRet, pop_none.mpr h, raiseFault]

theorem exec_call_room (addr : Addr) {s : State} (h : s.sp.val < 16) : exec (.call addr) s = .next (called addr s h) := by
  simp only [exec, execCall, push, dif_pos h, setPc, called]

theorem exec_call_full (addr : Addr) {s : State} (h : s.sp.val = 16) :
    exec (.call addr) s = .fault (.stackOverflow s.pc) := by
  simp only [exec, execCall, push_none.mpr h, raiseFault]

theorem called_stack_top {addr : Addr} {s : State} (h : s.sp.val < 16) : (called addr s h).stack[s.sp.val] = s.pc + 2 :=
  Vector.getElem_set_self h

theorem called_stack_other {addr : Addr} {s : State} (h : s.sp.val < 16) {k : Fin 16} (hk : k.val ≠ s.sp.val) :
    (called addr s h).stack[k] = s.stack[k] :=
  Vector.getElem_set_ne h k.isLt hk.symm

/-! ## Skips (R103, R123 to R126) -/

theorem pcMoved_skipIf_true (s : State) : pcMoved s (skipIf true s) 4 := pcMoved_of_eq 4 rfl (by decide)

theorem pcMoved_skipIf_false (s : State) : pcMoved s (skipIf false s) 2 := pcMoved_of_eq 2 rfl (by decide)

/-- What a skip does, for a condition `c` that holds under `P` and fails under `Q`. -/
theorem skipIf_moves_pc_only {P Q : Prop} {c : Bool} {i : Instr} {s : State} (hx : exec i s = .next (skipIf c s))
    (hP : P → c = true) (hQ : Q → c = false) :
    ∃ t, exec i s = .next t ∧ (P → pcMoved s t 4) ∧ (Q → pcMoved s t 2) ∧ { t with pc := s.pc } = s := by
  refine ⟨_, hx, fun h => ?_, fun h => ?_, rfl⟩
  · rw [hP h]; exact pcMoved_skipIf_true s
  · rw [hQ h]; exact pcMoved_skipIf_false s

/-! ## The statements -/

/-- Settles O15: one equation of RET for each side of its bounds check. -/
theorem retPopsTheReturnAddress : Obligations.RetPopsTheReturnAddress :=
  ⟨fun _ h => ⟨_, exec_ret_outstanding h, Nat.sub_add_cancel h, fun _ => rfl, rfl⟩, fun _ => exec_ret_empty⟩

/-- Settles O16: one equation of CALL for each side of its bounds check, and the array read after the push. -/
theorem callPushesAndJumps : Obligations.CallPushesAndJumps := by
  refine ⟨fun addr s h => ⟨_, exec_call_room addr h, rfl, ?_, fun k hk => called_stack_other h hk, translateAddr_toNat addr, rfl⟩,
    fun addr _ => exec_call_full addr⟩
  rw [called_stack_top h]
  exact BitVec.toNat_add s.pc 2

/-- Settles O20: the call left room for its entry, so the return pops that entry and the rest is as before the call. -/
theorem returnUndoesCall : Obligations.ReturnUndoesCall := by
  intro addr s t u hcall hsp hstack
  have hroom : s.sp.val < 16 := by
    refine Nat.lt_of_le_of_ne (Nat.le_of_lt_succ s.sp.isLt) fun hfull => ?_
    rw [exec_call_full addr hfull] at hcall
    cases hcall
  obtain ⟨t', ht', htop, hpushed, hother, -, -⟩ := callPushesAndJumps.1 addr s hroom
  obtain rfl : t' = t := Host.Outcome.next.inj (ht'.symm.trans hcall)
  obtain ⟨z, hz, hdown, hpc, hframe⟩ := retPopsTheReturnAddress.1 u (by omega)
  have hzsp : z.sp = s.sp := by
    rw [hsp, htop] at hdown
    exact Fin.ext (Nat.succ.inj hdown)
  have hzstack : z.stack = t'.stack := (congrArg State.stack hframe).trans hstack
  refine ⟨z, hz, ?_, hzsp, fun k hk => ?_⟩
  · rw [hpc (hzsp ▸ hroom)]
    simpa only [hzsp, hstack] using hpushed
  · rw [hzstack]
    exact hother k hk

/-- Settles O17: the translated address as a number, and the sum with V0 mod 65536. -/
theorem jumpsGoToTranslatedAddresses : Obligations.JumpsGoToTranslatedAddresses := by
  refine fun addr s => ⟨⟨_, rfl, translateAddr_toNat addr, rfl⟩, ⟨_, rfl, ?_, rfl⟩⟩
  calc (translateAddr addr + zext16 (getV s regV0)).toNat
    _ = ((translateAddr addr).toNat + (zext16 (getV s regV0)).toNat) % 65536 := BitVec.toNat_add _ _
    _ = (physical addr + (getV s 0x0).toNat) % 65536 := by rw [translateAddr_toNat, zext16_toNat]; rfl

/-- Settles O18: the two words decode by the decoder's inverse, and each instruction is a skip under its comparison. -/
theorem skipsAgainstAByte : Obligations.SkipsAgainstAByte :=
  fun x kk _ => ⟨decodeWord_encode (.seImm x kk), decodeWord_encode (.sneImm x kk),
    skipIf_moves_pc_only rfl beq_iff_eq.mpr beq_eq_false_iff_ne.mpr,
    skipIf_moves_pc_only rfl bne_iff_ne.mpr bne_eq_false_iff_eq.mpr⟩

/-- Settles O19: each instruction is a skip under its comparison, which leaves the low nibble out. -/
theorem skipsBetweenRegisters : Obligations.SkipsBetweenRegisters :=
  fun _ _ _ _ => ⟨skipIf_moves_pc_only rfl beq_iff_eq.mpr beq_eq_false_iff_ne.mpr,
    skipIf_moves_pc_only rfl bne_iff_ne.mpr bne_eq_false_iff_eq.mpr⟩

end Sys2Proof.Machine
end

section
/-! SUPPORT. Register load, arithmetic, logic, shifts and the random byte (spec 42_register_alu.md R140 to R152). An instruction ends
in one of two ways: it writes its destination and advances, or it writes VF, then its destination, and advances. What each way leaves
in the registers is said once; where a result is formed after the flag write, so is what it reads there (R9, D7). -/

namespace Sys2Proof.Machine

theorem pcMoved_advance {s u : State} (h : u.pc = s.pc) : pcMoved s (advance u) 2 :=
  pcMoved_of_eq 2 (congrArg (· + 2) h) (by decide)

/-! ## The destination only (R140 to R145, R152) -/

theorem getV_advance_setV_self (s : State) (x : RegIx) (b : Byte) : getV (advance (setV s x b)) x = b :=
  getV_setV_self s x b

theorem getV_advance_setV_ne (s : State) (x : RegIx) (b : Byte) (r : RegIx) (h : r ≠ x) :
    getV (advance (setV s x b)) r = getV s r :=
  getV_setV_ne s x r b h

/-! ## The flag, then the destination (R146 to R151) -/

/-- The state after an instruction that writes `f` to VF, then `b` to its destination, and advances. -/
def flagThenResult (s : State) (f : Byte) (x : RegIx) (b : Byte) : State := advance (setV (setVF s f) x b)

theorem pcMoved_flagThenResult (s : State) (f : Byte) (x : RegIx) (b : Byte) : pcMoved s (flagThenResult s f x b) 2 :=
  pcMoved_advance rfl

theorem getV_flagThenResult_dest (s : State) (f : Byte) (x : RegIx) (b : Byte) : getV (flagThenResult s f x b) x = b :=
  getV_advance_setV_self (setVF s f) x b

/-- The flag stays in VF unless VF is the destination. -/
theorem getV_flagThenResult_flag (s : State) (f : Byte) {x : RegIx} (b : Byte) (hx : x ≠ 0xF) :
    getV (flagThenResult s f x b) 0xF = f :=
  (getV_advance_setV_ne (setVF s f) x b 0xF hx.symm).trans (getV_setVF_self s f)

theorem getV_flagThenResult_other (s : State) (f : Byte) (x : RegIx) (b : Byte) (r : RegIx) (hr : r ≠ x) (hF : r ≠ 0xF) :
    getV (flagThenResult s f x b) r = getV s r :=
  (getV_advance_setV_ne (setVF s f) x b r hr).trans (getV_setVF_ne s r f hF)

/-! ## Differences formed after the flag write (R147, R149, D7) -/

/-- The difference of two registers as the flag write left them. -/
def diffAfterFlag (s : State) (f : Byte) (m n : RegIx) : Byte := getV (setVF s f) m - getV (setVF s f) n

theorem exec_subReg (x y : RegIx) (s : State) :
    exec (.subReg x y) s = .next (flagThenResult s (notBorrowFlag (getV s x) (getV s y)) x
      (diffAfterFlag s (notBorrowFlag (getV s x) (getV s y)) x y)) := rfl

theorem exec_subnReg (x y : RegIx) (s : State) :
    exec (.subnReg x y) s = .next (flagThenResult s (notBorrowFlag (getV s y) (getV s x)) x
      (diffAfterFlag s (notBorrowFlag (getV s y) (getV s x)) y x)) := rfl

section
variable {s : State} {f : Byte} {m n : RegIx}

theorem diffAfterFlag_toNat (hm : m ≠ 0xF) (hn : n ≠ 0xF) :
    (diffAfterFlag s f m n).toNat = ((getV s m).toNat + 256 - (getV s n).toNat) % 256 := by
  rw [diffAfterFlag, byte_sub_toNat, getV_setVF_ne s m f hm, getV_setVF_ne s n f hn]

theorem diffAfterFlag_subtrahend_VF (hm : m ≠ 0xF) :
    (diffAfterFlag s f m 0xF).toNat = ((getV s m).toNat + 256 - f.toNat) % 256 := by
  rw [diffAfterFlag, byte_sub_toNat, getV_setVF_ne s m f hm, getV_setVF_self]

theorem diffAfterFlag_minuend_VF (hn : n ≠ 0xF) :
    (diffAfterFlag s f 0xF n).toNat = (f.toNat + 256 - (getV s n).toNat) % 256 := by
  rw [diffAfterFlag, byte_sub_toNat, getV_setVF_ne s n f hn, getV_setVF_self]

theorem diffAfterFlag_same : diffAfterFlag s f m m = 0 := BitVec.sub_self _

end

/-! ## Shifts (R148, R151) -/

theorem exec_shr (x y : RegIx) (s : State) :
    exec (.shr x y) s = .next (flagThenResult s (bit0Flag (getV s x)) x (getV (setVF s (bit0Flag (getV s x))) x >>> 1)) := rfl

theorem exec_shl (x y : RegIx) (s : State) :
    exec (.shl x y) s = .next (flagThenResult s (bit6Flag (getV s x)) x (getV (setVF s (bit6Flag (getV s x))) x <<< 1)) := rfl

theorem byte_shiftRight_one_toNat (a : Byte) : (a >>> 1).toNat = a.toNat / 2 := by
  rw [BitVec.toNat_ushiftRight, Nat.shiftRight_eq_div_pow]

theorem byte_shiftLeft_one_toNat (a : Byte) : (a <<< 1).toNat = a.toNat * 2 % 256 := by
  rw [BitVec.toNat_shiftLeft, Nat.shiftLeft_eq]

/-- The flag of SHR has no bit above bit 0, so a further shift leaves nothing. -/
theorem bit0Flag_shiftRight_one (a : Byte) : bit0Flag a >>> 1 = 0 := by
  apply BitVec.eq_of_toNat_eq
  rw [byte_shiftRight_one_toNat, bit0Flag_toNat]
  exact Nat.div_eq_of_lt (Nat.mod_lt _ (by decide))

/-- Twice the flag of SHL is at most 2, so nothing is lost. -/
theorem bit6Flag_shiftLeft_one_toNat (a : Byte) : (bit6Flag a <<< 1).toNat = a.toNat / 64 % 2 * 2 := by
  rw [byte_shiftLeft_one_toNat, bit6Flag_toNat]
  omega

/-! ## The statements -/

/-- Settles O24: the sum is formed before the flag write, so the carry is in VF unless the sum took its place. -/
theorem addRecordsTheCarry : Obligations.AddRecordsTheCarry := by
  intro x y s
  refine ⟨decodeWord_encode (.addReg x y),
    flagThenResult s (carryFlag (getV s x) (getV s y)) x (getV s x + getV s y), rfl, ?_, fun hx => ?_,
    getV_flagThenResult_other s _ x _, pcMoved_flagThenResult s _ x _, rfl⟩
  · rw [getV_flagThenResult_dest]
    exact BitVec.toNat_add _ _
  · rw [getV_flagThenResult_flag s _ _ hx, carryFlag_toNat]

/-- Settles O25: the difference Vx - Vy after the flag write, by which of its two registers is VF. -/
theorem subRecordsNotBorrow : Obligations.SubRecordsNotBorrow := by
  intro x y s
  refine ⟨_, exec_subReg x y s, ⟨fun hx => ?_, fun hx hy => ?_, ?_, ?_, ?_⟩,
    getV_flagThenResult_other s _ x _, pcMoved_flagThenResult s _ x _, rfl⟩
  · rw [getV_flagThenResult_flag s _ _ hx, notBorrowFlag_toNat]
  · rw [getV_flagThenResult_dest, diffAfterFlag_toNat hx hy]
  · rintro hx rfl
    rw [getV_flagThenResult_dest, diffAfterFlag_subtrahend_VF hx, notBorrowFlag_toNat]
  · rintro rfl hy
    rw [getV_flagThenResult_dest, diffAfterFlag_minuend_VF hy, notBorrowFlag_toNat]
  · rintro rfl rfl
    rw [getV_flagThenResult_dest, diffAfterFlag_same]

/-- Settles O26: the difference Vy - Vx after the flag write, by which of its two registers is VF. -/
theorem subnRecordsNotBorrow : Obligations.SubnRecordsNotBorrow := by
  intro x y s
  refine ⟨_, exec_subnReg x y s, ⟨fun hx => ?_, fun hx hy => ?_, ?_, ?_, ?_⟩,
    getV_flagThenResult_other s _ x _, pcMoved_flagThenResult s _ x _, rfl⟩
  · rw [getV_flagThenResult_flag s _ _ hx, notBorrowFlag_toNat]
  · rw [getV_flagThenResult_dest, diffAfterFlag_toNat hy hx]
  · rintro hx rfl
    rw [getV_flagThenResult_dest, diffAfterFlag_minuend_VF hx, notBorrowFlag_toNat]
  · rintro rfl hy
    rw [getV_flagThenResult_dest, diffAfterFlag_subtrahend_VF hy, notBorrowFlag_toNat]
  · rintro rfl rfl
    rw [getV_flagThenResult_dest, diffAfterFlag_same]

/-- Settles O27: the shift reads old Vx, or the flag itself when Vx is VF; `y` is not read. -/
theorem shrKeepsBitZero : Obligations.ShrKeepsBitZero := by
  intro x y s
  refine ⟨_, exec_shr x y s, fun hx => ⟨?_, ?_⟩, ?_,
    getV_flagThenResult_other s _ x _, pcMoved_flagThenResult s _ x _, rfl, fun y' => exec_shr x y' s⟩
  · rw [getV_flagThenResult_dest, getV_setVF_ne s x _ hx, byte_shiftRight_one_toNat]
  · rw [getV_flagThenResult_flag s _ _ hx, bit0Flag_toNat]
  · rintro rfl
    rw [getV_flagThenResult_dest, getV_setVF_self, bit0Flag_shiftRight_one]

/-- Settles O28: the shift reads old Vx, or the flag itself when Vx is VF; `y` is not read. -/
theorem shlRecordsBitSix : Obligations.ShlRecordsBitSix := by
  intro x y s
  refine ⟨_, exec_shl x y s, fun hx => ⟨?_, ?_⟩, ?_,
    getV_flagThenResult_other s _ x _, pcMoved_flagThenResult s _ x _, rfl, fun y' => exec_shl x y' s⟩
  · rw [getV_flagThenResult_dest, getV_setVF_ne s x _ hx, byte_shiftLeft_one_toNat]
  · rw [getV_flagThenResult_flag s _ _ hx, bit6Flag_toNat]
  · rintro rfl
    rw [getV_flagThenResult_dest, getV_setVF_self, bit6Flag_shiftLeft_one_toNat]

/-- Settles O21: one write to the destination. -/
theorem loadByteWritesTheRegister : Obligations.LoadByteWritesTheRegister :=
  fun x kk s => ⟨decodeWord_encode (.ldImm x kk), _, rfl, getV_advance_setV_self s x _, getV_advance_setV_ne s x _,
    pcMoved_advance rfl, rfl⟩

/-- Settles O22: one write to the destination, of a sum of bytes. -/
theorem addByteWrapsWithoutCarry : Obligations.AddByteWrapsWithoutCarry := by
  refine fun x kk s => ⟨decodeWord_encode (.addImm x kk), _, rfl, ?_, getV_advance_setV_ne s x _, pcMoved_advance rfl, rfl⟩
  rw [getV_advance_setV_self]
  exact BitVec.toNat_add _ _

/-- Settles O23: one write to the destination each, of a byte whose bits the library's lemmas give. -/
theorem registerLogicIsBitwise : Obligations.RegisterLogicIsBitwise := by
  refine fun x y s => ⟨decodeWord_encode (.ldReg x y), decodeWord_encode (.orReg x y), decodeWord_encode (.andReg x y),
    decodeWord_encode (.xorReg x y),
    ⟨_, rfl, getV_advance_setV_self s x _, getV_advance_setV_ne s x _, pcMoved_advance rfl, rfl⟩,
    ⟨_, rfl, fun k => ?_, getV_advance_setV_ne s x _, pcMoved_advance rfl, rfl⟩,
    ⟨_, rfl, fun k => ?_, getV_advance_setV_ne s x _, pcMoved_advance rfl, rfl⟩,
    ⟨_, rfl, fun k => ?_, getV_advance_setV_ne s x _, pcMoved_advance rfl, rfl⟩⟩
  · rw [getV_advance_setV_self, BitVec.getLsbD_or]
  · rw [getV_advance_setV_self, BitVec.getLsbD_and]
  · rw [getV_advance_setV_self, BitVec.getLsbD_xor]

/-- Settles O29: one write to the destination, of the masked answer, in the state that has used the answer up. -/
theorem randomByteIsMasked : Obligations.RandomByteIsMasked := by
  refine fun x kk s => ⟨_, rfl, fun k => ?_, rfl, getV_advance_setV_ne (useRand s) x _, pcMoved_advance rfl, rfl⟩
  rw [getV_advance_setV_self, BitVec.getLsbD_and]
  rfl

end Sys2Proof.Machine
end

section
/-! SUPPORT. The index register and memory transfer (spec 43_index_memory.md R160 to R166). LD B is one write of the digits as a byte
sequence; the block transfers have what they leave in memory and in the registers from the laws of `storeRegs` and `loadRegs`; the round
trip follows from the two statements about them. -/

namespace Sys2Proof.Machine

/-! ## LD B (R163) -/

/-- The decimal digits of a byte, in the order LD B stores them. -/
def bcdDigits (b : Byte) : List Byte := [bcdHundreds b, bcdTens b, bcdOnes b]

theorem exec_ldB (x : RegIx) (s : State) :
    exec (.ldB x) s = .next (advance (setMem s (memWriteBytes s.mem s.i.toNat (bcdDigits (getV s x))))) := rfl

theorem memRead_bcdDigits_at (m : Memory) (n : Nat) {a : Nat} (b : Byte) (k : Nat) (hk : k < 3) (ha : a = n + k)
    (hin : a < memSize) : memRead (memWriteBytes m n (bcdDigits b)) a = (bcdDigits b).getD k 0 := by
  subst ha
  rw [memRead_memWriteBytes, if_pos ⟨Nat.le_add_right n k, Nat.add_lt_add_left hk n, hin⟩, Nat.add_sub_cancel_left]

theorem memRead_bcdDigits_other (m : Memory) {n a : Nat} (b : Byte) (h : a < n ∨ n + 3 ≤ a) :
    memRead (memWriteBytes m n (bcdDigits b)) a = memRead m a := by
  rw [memRead_memWriteBytes, if_neg]
  rintro ⟨hlo, hhi, -⟩
  exact h.elim (Nat.not_lt.mpr hlo) (Nat.not_le.mpr hhi)

/-! ## Block transfer (R164, R165) -/

theorem exec_ldMemVx (x : RegIx) (s : State) :
    exec (.ldMemVx x) s = .next (advance (setMem s (storeRegs s s.i (x.toNat + 1)))) := rfl

/-- A block store puts each register it covers at its own address in RAM. -/
theorem memRead_storeRegs_at (s : State) (base : Word) {n : Nat} {k : RegIx} (hk : k.toNat < n)
    (h : base.toNat + k.toNat < memSize) : memRead (storeRegs s base n) (base.toNat + k.toNat) = getV s k := by
  rw [memRead_storeRegs, if_pos ⟨Nat.le_add_right _ _, Nat.add_lt_add_left hk _, h⟩, Nat.add_sub_cancel_left, regOfNat_toNat]

/-- The state after a block load: only the registers, `I` and `pc` are written. -/
def blockLoaded (x : RegIx) (s : State) : State :=
  { s with v := (loadRegs s s.i (x.toNat + 1)).v, i := s.i + BitVec.ofNat 16 (x.toNat + 1), pc := s.pc + 2 }

theorem exec_ldVxMem (x : RegIx) (s : State) : exec (.ldVxMem x) s = .next (blockLoaded x s) := by
  rw [exec, execLdVxMem, loadRegs_eq]
  rfl

theorem getV_blockLoaded (x : RegIx) (s : State) (r : RegIx) :
    getV (blockLoaded x s) r = if r.toNat < x.toNat + 1 then memRead s.mem (s.i.toNat + r.toNat) else getV s r :=
  getV_loadRegs s s.i (x.toNat + 1) x.isLt r

theorem blockLoaded_i_toNat (x : RegIx) (s : State) :
    (blockLoaded x s).i.toNat = (s.i.toNat + x.toNat + 1) % 65536 := by
  rw [blockLoaded, BitVec.toNat_add, BitVec.toNat_ofNat, Nat.add_mod_mod, Nat.add_assoc]

/-! ## The statements -/

/-- Settles O30: each operand as a number. -/
theorem indexRegisterWrites : Obligations.IndexRegisterWrites := by
  refine ⟨fun addr s => ⟨_, rfl, translateAddr_toNat addr, pcMoved_advance rfl, rfl⟩,
    fun x s => ⟨_, rfl, ?_, pcMoved_advance rfl, rfl⟩,
    fun x s => ⟨_, rfl, fontAddr_toNat (getV s x), pcMoved_advance rfl, rfl⟩⟩
  calc (s.i + zext16 (getV s x)).toNat
    _ = (s.i.toNat + (zext16 (getV s x)).toNat) % 65536 := BitVec.toNat_add _ _
    _ = (s.i.toNat + (getV s x).toNat) % 65536 := by rw [zext16_toNat]

/-- Settles O31: an address lies outside RAM, is that of one of the three digits, or is not written. -/
theorem bcdStoresThreeDigits : Obligations.BcdStoresThreeDigits := by
  refine fun x s => ⟨_, exec_ldB x s, pcMoved_advance rfl, rfl, fun a => ?_⟩
  rw [advance_mem, setMem_mem]
  obtain ⟨hhundreds, htens, hones⟩ := bcd_toNat (getV s x)
  split
  · next hout => rw [memRead_outside _ a hout]; rfl
  next hout =>
  have hin : a < memSize := Nat.lt_of_not_le hout
  split
  · next h => rw [memRead_bcdDigits_at s.mem s.i.toNat _ 0 (by decide) h hin]; exact hhundreds
  split
  · next h => rw [memRead_bcdDigits_at s.mem s.i.toNat _ 1 (by decide) h hin]; exact htens
  split
  · next h => rw [memRead_bcdDigits_at s.mem s.i.toNat _ 2 (by decide) h hin]; exact hones
  · rw [memRead_bcdDigits_other s.mem _ (by omega)]

/-- Settles O32: the bytes stored by the law of the block store, the bytes not stored to by the frame of every instruction. -/
theorem blockStoreWritesV0ToVx : Obligations.BlockStoreWritesV0ToVx :=
  fun x s => ⟨_, exec_ldMemVx x s, pcMoved_advance rfl, rfl,
    fun _ hk h => memRead_storeRegs_at s s.i (Nat.lt_succ_of_le hk) h,
    fun a ha => unstoredBytesStay _ _ _ a (exec_ldMemVx x s) ha, fun a h => memRead_outside _ a h⟩

/-- Settles O33: the registers up to Vx and those above are the two sides of the block load's law. -/
theorem blockLoadReadsV0ToVx : Obligations.BlockLoadReadsV0ToVx := by
  refine fun x s => ⟨_, exec_ldVxMem x s, fun k hk => ?_, fun k hk => ?_, blockLoaded_i_toNat x s,
    pcMoved_of_eq 2 rfl (by decide), rfl⟩
  · rw [getV_blockLoaded, if_pos (Nat.lt_succ_of_le hk)]
  · rw [getV_blockLoaded, if_neg (Nat.not_lt.mpr hk)]

/-- Settles O34: the store leaves the registers and `I`, so the load reads each register up to Vx from where it was stored, and the
registers above keep their bytes. -/
theorem blockStoreThenLoadRoundTrips : Obligations.BlockStoreThenLoadRoundTrips := by
  intro x s hin
  obtain ⟨t, ht, -, hframe, hstored, -, -⟩ := blockStoreWritesV0ToVx x s
  obtain ⟨u, hu, hloaded, habove, hindex, -, -⟩ := blockLoadReadsV0ToVx x t
  have hi : t.i = s.i := (congrArg State.i hframe :)
  have hregs (r : RegIx) : getV t r = getV s r := (congrArg (getV · r) hframe :)
  refine ⟨t, u, ht, hu, fun r => ?_, hi, ?_⟩
  · obtain hr | hr := Nat.lt_or_ge x.toNat r.toNat
    · rw [habove r hr, hregs r]
    · rw [hloaded r hr, hi, hstored r hr (by omega)]
  · rw [hindex, hi]
    exact Nat.mod_eq_of_lt (by omega)

end Sys2Proof.Machine
end

section
/-! SUPPORT. The display (spec 44_display.md R180 to R186). What a DRW draws is the blit of its sprite at the position it latches; what
the blit does to each pixel, and when it collides, is said of the pixels that the sprite covers. The double-XOR law follows from the
statement about one DRW, used twice. -/

namespace Sys2Proof.Machine

/-! ## The pixel primitives (R183, R184) -/

theorem fbXor_outside (f : FrameBuffer) {px py : Nat} (h : 64 ≤ px ∨ 32 ≤ py) : fbXor f px py = f := by
  rw [fbXor, dif_neg]
  rintro ⟨hx, hy⟩
  exact h.elim (Nat.not_le.mpr hx) (Nat.not_le.mpr hy)

theorem fbRead_fbXor_self (f : FrameBuffer) {px py : Nat} (hx : px < 64) (hy : py < 32) :
    fbRead (fbXor f px py) px py = !fbRead f px py := by
  simp [fbRead_fbXor, hx, hy]

theorem fbRead_fbXor_ne (f : FrameBuffer) {px py qx qy : Nat} (h : (qx, qy) ≠ (px, py)) :
    fbRead (fbXor f px py) qx qy = fbRead f qx qy := by
  have hne : px = qx → py ≠ qy := by
    rintro rfl rfl
    exact h rfl
  by_cases hx : px = qx
  · simp [fbRead_fbXor, hne hx]
  · simp [fbRead_fbXor, hx]

/-- A pixel that is set lies on the grid. -/
theorem fbRead_inRange {f : FrameBuffer} {px py : Nat} (h : fbRead f px py = true) : px < 64 ∧ py < 32 := by
  by_contra hout
  rw [fbRead_outside f px py (by omega)] at h
  exact Bool.false_ne_true h

theorem fbRead_fbClear (px py : Nat) : fbRead fbClear px py = false := fbRead_reset px py

/-! ## The sprite (R182) -/

/-- One byte a row. -/
theorem spriteBit_narrow (m : Memory) (base : Word) {n : Nibble} (row col : Nat) (hn : n ≠ 0) :
    spriteBit m base n row col = (memRead m (base.toNat + row)).getLsbD (7 - col % 8) := by
  rw [spriteBit, spriteAddr, if_neg hn, effAddr]

/-- Two bytes a row. -/
theorem spriteBit_wide (m : Memory) (base : Word) (row col : Nat) :
    spriteBit m base 0 row col = (memRead m (base.toNat + (2 * row + col / 8))).getLsbD (7 - col % 8) := rfl

/-- The pixels a sprite covers are the positions of its set bits, counted from the position that DRW latches. -/
theorem spriteCovers_iff (s : State) (x y : RegIx) (n : Nibble) (px py : Nat) :
    spriteCovers s x y n px py = true
      ↔ ∃ row col, row < spriteHeight n ∧ col < spriteWidth n ∧ spriteBit s.mem s.i n row col = true
        ∧ px = (getV s x).toNat + col ∧ py = (getV s y).toNat + row := by
  simp only [spriteCovers, Bool.and_eq_true, decide_eq_true_eq]
  constructor
  · rintro ⟨⟨⟨⟨hx, hxw⟩, hy⟩, hyh⟩, hbit⟩
    exact ⟨_, _, by omega, by omega, hbit, by omega, by omega⟩
  · rintro ⟨row, col, hrow, hcol, hbit, rfl, rfl⟩
    simp only [Nat.add_sub_cancel_left]
    exact ⟨⟨⟨⟨by omega, by omega⟩, by omega⟩, by omega⟩, hbit⟩

/-- Which pixels a sprite covers depends on memory, `I` and the two position registers only. -/
theorem spriteCovers_congr {s t : State} {x y : RegIx} (n : Nibble) (px py : Nat) (hm : t.mem = s.mem) (hi : t.i = s.i)
    (hx : getV t x = getV s x) (hy : getV t y = getV s y) : spriteCovers t x y n px py = spriteCovers s x y n px py := by
  unfold spriteCovers
  rw [hm, hi, hx, hy]

/-! ## The blit of a DRW (R181) -/

/-- The framebuffer that `DRW Vx, Vy, n` makes in state `s`, and its collision. -/
def blit (x y : RegIx) (n : Nibble) (s : State) : FrameBuffer × Bool :=
  drawSprite s.mem s.fb s.i n (getV s x).toNat (getV s y).toNat

/-- The state after that DRW: VF, the framebuffer, the output and `pc` are written. -/
def drawn (x y : RegIx) (n : Nibble) (s : State) : State :=
  advance (present (setFb (setVF s (flagByte (blit x y n s).2)) (blit x y n s).1))

theorem exec_drw (x y : RegIx) (n : Nibble) (s : State) : exec (.drw x y n) s = .next (drawn x y n s) := rfl

theorem getV_drawn_VF (x y : RegIx) (n : Nibble) (s : State) : getV (drawn x y n s) 0xF = flagByte (blit x y n s).2 :=
  getV_setVF_self s _

theorem getV_drawn_ne (x y : RegIx) (n : Nibble) (s : State) (r : RegIx) (hr : r ≠ 0xF) : getV (drawn x y n s) r = getV s r :=
  getV_setVF_ne s r _ hr

theorem fbRead_blit (x y : RegIx) (n : Nibble) (s : State) {px py : Nat} (hx : px < 64) (hy : py < 32) :
    fbRead (blit x y n s).1 px py = (fbRead s.fb px py ^^ spriteCovers s x y n px py) := by
  rw [blit, drawSprite, drawRows_spec, spriteCovers, decide_eq_true hx, decide_eq_true hy, Bool.and_true, Bool.and_true]

theorem blit_collides_iff (x y : RegIx) (n : Nibble) (s : State) :
    (blit x y n s).2 = true
      ↔ ∃ px py, px < 64 ∧ py < 32 ∧ spriteCovers s x y n px py = true ∧ fbRead s.fb px py = true := by
  rw [blit, drawSprite, drawRows_hit]
  constructor
  · rintro (hfalse | ⟨row, col, hrow, hcol, hbit, hset⟩)
    · exact absurd hfalse Bool.false_ne_true
    · obtain ⟨hx, hy⟩ := fbRead_inRange hset
      exact ⟨_, _, hx, hy, (spriteCovers_iff s x y n _ _).mpr ⟨row, col, hrow, hcol, hbit, rfl, rfl⟩, hset⟩
  · rintro ⟨px, py, -, -, hcov, hset⟩
    obtain ⟨row, col, hrow, hcol, hbit, rfl, rfl⟩ := (spriteCovers_iff s x y n px py).mp hcov
    exact .inr ⟨row, col, hrow, hcol, hbit, hset⟩

theorem flagByte_eq_zero_or_one (c : Bool) : flagByte c = 0 ∨ flagByte c = 1 := by cases c <;> decide

/-! ## The statements -/

/-- Settles O35: one law for each clause. -/
theorem pixelsAreBoundsChecked : Obligations.PixelsAreBoundsChecked :=
  fun f px py _ _ => ⟨fun h => ⟨fbRead_outside f px py h, fbXor_outside f h⟩, fbRead_fbXor_self f, fbRead_fbXor_ne f⟩

/-- Settles O37: columns 0 to 7 are the first byte of a row, columns 8 to 15 of a wide sprite the second. -/
theorem spriteLayout : Obligations.SpriteLayout := by
  intro m base n row col
  refine ⟨fun hn => ⟨if_neg hn, if_neg hn, fun hcol => ?_⟩, ?_⟩
  · rw [spriteBit_narrow m base row col hn, Nat.mod_eq_of_lt hcol]
  · rintro rfl
    refine ⟨rfl, rfl, fun hcol => ?_, fun hlo hhi => ?_⟩
    · rw [spriteBit_wide, Nat.div_eq_of_lt hcol, Nat.mod_eq_of_lt hcol, Nat.add_zero]
    · have hbyte : col / 8 = 1 := by omega
      have hbit : 7 - col % 8 = 15 - col := by omega
      rw [spriteBit_wide, hbyte, hbit, Nat.add_assoc]

/-- Settles O38: the blit's pixels and its collision; VF is the only register written. -/
theorem drawFlipsExactlyTheSprite : Obligations.DrawFlipsExactlyTheSprite := by
  intro x y n s
  refine ⟨_, exec_drw x y n s, fun _ _ => fbRead_blit x y n s, ?_, ?_, getV_drawn_ne x y n s, rfl, pcMoved_advance rfl, rfl⟩
  · rw [getV_drawn_VF]
    exact flagByte_eq_zero_or_one _
  · rw [getV_drawn_VF, flagByte_eq_one, blit_collides_iff]

/-- Settles O39: the first DRW leaves memory, `I`, Vx and Vy, so the second covers the same pixels: it flips each of them back, and
finds set the ones that were clear. -/
theorem drawTwiceRestoresTheScreen : Obligations.DrawTwiceRestoresTheScreen := by
  intro x y n s hx hy
  obtain ⟨t, ht, hflip, -, -, hregs, -, -, hframe⟩ := drawFlipsExactlyTheSprite x y n s
  obtain ⟨u, hu, hflip', -, hVF, -⟩ := drawFlipsExactlyTheSprite x y n t
  have hmem : t.mem = s.mem := (congrArg State.mem hframe :)
  have hi : t.i = s.i := (congrArg State.i hframe :)
  have hcov (px py : Nat) : spriteCovers t x y n px py = spriteCovers s x y n px py :=
    spriteCovers_congr n px py hmem hi (hregs x hx) (hregs y hy)
  refine ⟨t, u, ht, hu, fb_ext fun px py hpx hpy => ?_, hVF.trans ?_⟩
  · rw [hflip' px py hpx hpy, hflip px py hpx hpy, hcov, Bool.xor_assoc, Bool.xor_self, Bool.xor_false]
  · refine exists_congr fun px => exists_congr fun py => and_congr_right fun hpx => and_congr_right fun hpy => ?_
    rw [hcov]
    refine and_congr_right fun hc => ?_
    rw [hflip px py hpx hpy, hc, Bool.xor_true, Bool.not_eq_true']

/-- Settles O36: one write to the framebuffer, presented. -/
theorem clearZeroesEveryPixel : Obligations.ClearZeroesEveryPixel :=
  ⟨decodeWord_encode .cls, fun _ => ⟨_, rfl, fbRead_fbClear, rfl, pcMoved_advance rfl, rfl⟩⟩

end Sys2Proof.Machine
end

section
/-! SUPPORT. Keypad and timer instructions (spec 45_keypad_timers.md R190 to R195). SKP and SKNP are skips under the comparison with the
pressed key; LD Vx, K has one equation for each state of the typed slot, and the empty slot is what makes the whole step a wait. -/

namespace Sys2Proof.Machine

/-! ## The pressed key (R190, R191, R221) -/

theorem keyIsDown_eq_false {s : State} {b : Byte} (h : ∀ k, s.pressed = some k → k.toNat ≠ b.toNat) :
    keyIsDown s b = false := by
  rw [← Bool.not_eq_true, keyIsDown_iff]
  rintro ⟨k, hk, hb⟩
  exact h k hk hb

/-! ## The typed key (R192, R107) -/

theorem exec_ldVxK_typed (x : RegIx) {s : State} {k : Key} (hk : s.typed = some k) :
    exec (.ldVxK x) s = .next (advance (setV (setTyped s none) x (keyByte k))) := by
  simp only [exec, execLdVxK, hk]

theorem exec_ldVxK_untyped (x : RegIx) {s : State} (hk : s.typed = none) : exec (.ldVxK x) s = .next s := by
  simp only [exec, execLdVxK, hk]

theorem keyWait_ldVxK (x : RegIx) {s : State} (hk : s.typed = none) : keyWait (.ldVxK x) s = true := by
  simp only [keyWait, hk, Option.isNone_none]

/-- What an interpreter's step answers for a key wait: the state as it was fetched, without the Scheduler's part (R214). -/
theorem settleExec_ldVxK_untyped (p : Params) (x : RegIx) {s : State} (hk : s.typed = none) :
    settleExec p (.ldVxK x) s (exec (.ldVxK x) s) = .next s := by
  simp only [exec_ldVxK_untyped x hk, settleExec, keyWait_ldVxK x hk, if_true]

/-! ## The statements -/

/-- Settles O42: the fetch leaves the typed slot empty, so the instruction writes nothing and the Scheduler has no part. -/
theorem keyWaitHoldsTheMachine : Obligations.KeyWaitHoldsTheMachine := by
  intro p s x hdue hf hr hi hk
  have hfetched : (fetched s).typed = none := hk
  rw [stepWith_of_decodeWord hdue hf hr hi, settleExec_ldVxK_untyped p x hfetched]
  rfl

/-- Settles O40: each instruction is a skip; SKNP is the one under the negated comparison. -/
theorem keySkips : Obligations.KeySkips := by
  refine fun x s => ⟨skipIf_moves_pc_only rfl (keyIsDown_iff s _).mpr keyIsDown_eq_false, ?_⟩
  obtain ⟨t, ht, hother, hheld, hframe⟩ := skipIf_moves_pc_only (i := .sknp x) (s := s) rfl
    (fun h => congrArg (! ·) (keyIsDown_eq_false h)) (fun h => congrArg (! ·) ((keyIsDown_iff s _).mpr h))
  exact ⟨t, ht, hheld, hother, hframe⟩

/-- Settles O41: the typed key as a byte is written to the destination, in the state whose slot is cleared. -/
theorem keyReadTakesTheTypedKey : Obligations.KeyReadTakesTheTypedKey := by
  refine fun x s k hk => ⟨_, exec_ldVxK_typed x hk, ?_, rfl, getV_advance_setV_ne (setTyped s none) x _, pcMoved_advance rfl, rfl⟩
  rw [getV_advance_setV_self, keyByte_toNat]

/-- Settles O43: the three words decode by the decoder's inverse, and each move is one write. -/
theorem timerMoves : Obligations.TimerMoves :=
  fun x s => ⟨decodeWord_encode (.ldVxDt x), decodeWord_encode (.ldDtVx x), decodeWord_encode (.ldStVx x),
    ⟨_, rfl, getV_advance_setV_self s x _, getV_advance_setV_ne s x _, pcMoved_advance rfl, rfl⟩,
    ⟨_, rfl, rfl, pcMoved_advance rfl, rfl⟩, ⟨_, rfl, rfl, pcMoved_advance rfl, rfl⟩⟩

end Sys2Proof.Machine
end

section
/-! SUPPORT. Timers, the keypad's events, and what a step does to the keypad, the output trace and the faulted condition (spec
60_exceptions.md R201 to R224). For each of the three: what an event does to it, then what an instruction does, and from those, by the
cases of `stepWith_next`, what a step does; the Scheduler's part touches none of them. -/

namespace Sys2Proof.Machine

/-! ## Timers and the Scheduler (R212 to R216) -/

theorem decay_toNat (b : Byte) : (decay b).toNat = b.toNat - 1 := by
  unfold decay
  split
  · next h => subst h; rfl
  · next h => bv_omega

theorem timerTick_iterate_toNat (s : State) (k : Nat) :
    (timerTick^[k] s).delay.toNat = s.delay.toNat - k ∧ (timerTick^[k] s).sound.toNat = s.sound.toNat - k := by
  induction k with
  | zero => exact ⟨rfl, rfl⟩
  | succ k ih =>
    obtain ⟨hdelay, hsound⟩ := ih
    rw [Function.iterate_succ_apply']
    simp only [timerTick_delay, timerTick_sound, decay_toNat, hdelay, hsound, Nat.sub_sub, and_self]

theorem afterStep_of_running {p : Params} {s : State} (hr : s.runState = .running) : afterStep p s = endOfStep p s := by
  rw [afterStep, hr]

theorem afterStep_of_halted {p : Params} {s : State} (hr : s.runState = .halted) : afterStep p s = endOfRun p s := by
  rw [afterStep, hr]

/-- Whether an instruction waited or the Scheduler followed it, the rest of the state is as the instruction left it. -/
theorem ranInstr_frame (p : Params) (c : Bool) (u : State) :
    { (if c then u else afterStep p u) with
      delay := u.delay
      sound := u.sound
      batchCtr := u.batchCtr
      runState := u.runState
      stopReq := u.stopReq } = u := by
  cases c with
  | true => rfl
  | false => exact afterStep_frame p u

theorem ranInstr_pressed (p : Params) (c : Bool) (u : State) : (if c then u else afterStep p u).pressed = u.pressed :=
  (congrArg State.pressed (ranInstr_frame p c u) :)

theorem ranInstr_typed (p : Params) (c : Bool) (u : State) : (if c then u else afterStep p u).typed = u.typed :=
  (congrArg State.typed (ranInstr_frame p c u) :)

theorem ranInstr_fb (p : Params) (c : Bool) (u : State) : (if c then u else afterStep p u).fb = u.fb :=
  (congrArg State.fb (ranInstr_frame p c u) :)

theorem ranInstr_presented (p : Params) (c : Bool) (u : State) : (if c then u else afterStep p u).presented = u.presented :=
  (congrArg State.presented (ranInstr_frame p c u) :)

theorem ranInstr_faulted (p : Params) (c : Bool) (u : State) : (if c then u else afterStep p u).faulted = u.faulted :=
  (congrArg State.faulted (ranInstr_frame p c u) :)

/-! ## The events, by the code's key (R218 to R220, R225) -/

/-- The code of each key's legend, in order of the keys (R218). -/
def legends : Vector PlatformKey 16 := #v[.x, .k1, .k2, .k3, .q, .w, .e, .a, .s, .d, .z, .c, .k4, .r, .f, .v]

theorem keyMap_legend : ∀ k : Key, keyMap (legends[k.toNat]'k.isLt) = some k := by decide

theorem eq_legend_of_keyMap {code : PlatformKey} {k : Key} (h : keyMap code = some k) : code = legends[k.toNat]'k.isLt := by
  cases code with
  | other c => cases h
  | _ => cases h; rfl

theorem onKeyDown_mapped {code : PlatformKey} {k : Key} (s : State) (hk : keyMap code = some k) :
    onKeyDown code s = { s with pressed := some k } := by
  rw [onKeyDown, hk]; rfl

theorem onKeyDown_unmapped {code : PlatformKey} (s : State) (hk : keyMap code = none) : onKeyDown code s = s := by
  rw [onKeyDown, hk]

theorem onKeyUp_pressed {code : PlatformKey} {k : Key} {s : State} (hk : keyMap code = some k) (hp : s.pressed = some k) :
    onKeyUp code s = { s with pressed := none, typed := some k } := by
  simp only [onKeyUp, hk, if_pos hp]; rfl

theorem onKeyUp_other {code : PlatformKey} {k : Key} {s : State} (hk : keyMap code = some k) (hp : s.pressed ≠ some k) :
    onKeyUp code s = s := by
  simp only [onKeyUp, hk, if_neg hp]

theorem onKeyUp_unmapped {code : PlatformKey} (s : State) (hk : keyMap code = none) : onKeyUp code s = s := by
  rw [onKeyUp, hk]

theorem onRun_frame (s : State) :
    { onRun s with runState := s.runState, batchCtr := s.batchCtr, stopReq := s.stopReq } = s := by
  unfold onRun
  split <;> rfl

theorem onStop_frame (s : State) : { onStop s with stopReq := s.stopReq } = s := by
  unfold onStop
  split <;> rfl

theorem onKeyDown_frame (code : PlatformKey) (s : State) : { onKeyDown code s with pressed := s.pressed } = s := by
  cases hk : keyMap code with
  | none => rw [onKeyDown_unmapped s hk]
  | some k => rw [onKeyDown_mapped s hk]

theorem onKeyUp_frame (code : PlatformKey) (s : State) :
    { onKeyUp code s with pressed := s.pressed, typed := s.typed } = s := by
  cases hk : keyMap code with
  | none => rw [onKeyUp_unmapped s hk]
  | some k =>
    by_cases hp : s.pressed = some k
    · rw [onKeyUp_pressed hk hp]
    · rw [onKeyUp_other hk hp]

/-! ## The keypad through a step (R223) -/

/-- Everything an event does to the keypad: a mapped key goes down, the pressed key goes up, or nothing. -/
theorem deliver_keypad {e : Event} {s t : State} (h : deliver e s = .next t) :
    (t.pressed = s.pressed ∧ t.typed = s.typed)
    ∨ (∃ code k, e = .keyDown code ∧ keyMap code = some k ∧ t.pressed = some k ∧ t.typed = s.typed)
    ∨ (∃ code k, e = .keyUp code ∧ keyMap code = some k ∧ s.pressed = some k ∧ t.pressed = none ∧ t.typed = some k) := by
  rcases deliver_next h with ⟨bytes, -, -, rfl⟩ | ⟨-, -, rfl⟩ | ⟨-, rfl⟩ | ⟨-, rfl⟩ | ⟨code, he, rfl⟩ | ⟨code, he, rfl⟩
  · exact .inl ⟨rfl, rfl⟩
  · exact .inl ⟨rfl, rfl⟩
  · exact .inl ⟨(congrArg State.pressed (onRun_frame s) :), (congrArg State.typed (onRun_frame s) :)⟩
  · exact .inl ⟨(congrArg State.pressed (onStop_frame s) :), (congrArg State.typed (onStop_frame s) :)⟩
  · cases hk : keyMap code with
    | none => rw [onKeyDown_unmapped s hk]; exact .inl ⟨rfl, rfl⟩
    | some k => rw [onKeyDown_mapped s hk]; exact .inr (.inl ⟨code, k, he, hk, rfl, rfl⟩)
  · cases hk : keyMap code with
    | none => rw [onKeyUp_unmapped s hk]; exact .inl ⟨rfl, rfl⟩
    | some k =>
      by_cases hp : s.pressed = some k
      · rw [onKeyUp_pressed hk hp]; exact .inr (.inr ⟨code, k, he, hk, hp, rfl, rfl⟩)
      · rw [onKeyUp_other hk hp]; exact .inl ⟨rfl, rfl⟩

/-- After LD Vx, K the typed slot is empty, whether it waited or read (R192). -/
theorem exec_ldVxK_clears_typed {x : RegIx} {s u : State} (h : exec (.ldVxK x) s = .next u) : u.typed = none := by
  cases hk : s.typed with
  | none => rw [exec_ldVxK_untyped x hk] at h; cases h; exact hk
  | some k => rw [exec_ldVxK_typed x hk] at h; cases h; rfl

/-- Everything an instruction does to the keypad: LD Vx, K empties the typed slot. -/
theorem exec_keypad {i : Instr} {s u : State} (h : exec i s = .next u) :
    u.pressed = s.pressed ∧ (u.typed = s.typed ∨ ((∃ x, i = .ldVxK x) ∧ u.typed = none)) := by
  obtain ⟨-, -, -, -, -, htyped, -, -, hpressed, -⟩ := unnamedStateStays i s u h
  refine ⟨hpressed, ?_⟩
  by_cases hi : ∃ x, i = .ldVxK x
  · obtain ⟨x, rfl⟩ := hi
    exact .inr ⟨⟨x, rfl⟩, exec_ldVxK_clears_typed h⟩
  · exact .inl (htyped fun x hx => hi ⟨x, hx⟩)

/-- Everything a step does to the keypad, and which turn it then was. -/
theorem stepWith_keypad {p : Params} {s t : State} (h : stepWith p s = .next t) :
    (t.pressed = s.pressed ∧ t.typed = s.typed)
    ∨ (∃ code k, dueTurn s = .event (.keyDown code) ∧ keyMap code = some k ∧ t.pressed = some k ∧ t.typed = s.typed)
    ∨ (∃ code k, dueTurn s = .event (.keyUp code) ∧ keyMap code = some k ∧ s.pressed = some k ∧ t.pressed = none
        ∧ t.typed = some k)
    ∨ (dueTurn s = .interpreter ∧ s.runState = .running ∧ (∃ x, decodeWord (fetchWord s) = .ok (.ldVxK x))
        ∧ t.pressed = s.pressed ∧ t.typed = none) := by
  rcases stepWith_next h with ⟨e, hdue, hd⟩ | ⟨hdue, -, ⟨-, rfl⟩ | ⟨hr, i, u, hi, hx, rfl⟩ | ⟨-, f, rfl, -⟩⟩
  · rw [hdue]
    rcases deliver_keypad hd with hsame | ⟨code, k, rfl, hdown⟩ | ⟨code, k, rfl, hup⟩
    · exact .inl hsame
    · exact .inr (.inl ⟨code, k, rfl, hdown⟩)
    · exact .inr (.inr (.inl ⟨code, k, rfl, hup⟩))
  · exact .inl ⟨rfl, rfl⟩
  · rw [ranInstr_pressed, ranInstr_typed]
    obtain ⟨hp, ht | ⟨⟨x, rfl⟩, ht⟩⟩ := exec_keypad hx
    · exact .inl ⟨hp, ht⟩
    · exact .inr (.inr (.inr ⟨hdue, hr, ⟨x, hi⟩, hp, ht⟩))
  · exact .inl ⟨rfl, rfl⟩

/-! ## The output trace through a step (R224) -/

theorem deliver_presented {e : Event} {s t : State} (h : deliver e s = .next t) : t.presented = s.presented := by
  rcases deliver_next h with ⟨bytes, -, -, rfl⟩ | ⟨-, -, rfl⟩ | ⟨-, rfl⟩ | ⟨-, rfl⟩ | ⟨code, -, rfl⟩ | ⟨code, -, rfl⟩
  · rfl
  · rfl
  · exact (congrArg State.presented (onRun_frame s) :)
  · exact (congrArg State.presented (onStop_frame s) :)
  · exact (congrArg State.presented (onKeyDown_frame code s) :)
  · exact (congrArg State.presented (onKeyUp_frame code s) :)

/-- CLS and DRW present the framebuffer they leave. -/
theorem exec_presents {i : Instr} {s u : State} (h : exec i s = .next u) (hi : presents i = true) :
    u.presented = u.fb :: s.presented := by
  cases i with
  | cls | drw => cases h; rfl
  | _ => cases hi

theorem exec_presented_of_not_presents {i : Instr} {s u : State} (h : exec i s = .next u) (hi : presents i = false) :
    u.presented = s.presented := by
  obtain ⟨-, -, hfb, -⟩ := unnamedStateStays i s u h
  exact (hfb hi).2

/-! ## The faulted condition through a step (R201, R202, R204) -/

/-- The fault `f` names what is wrong at `pc` in state `s`: an unmatched word, a call with 16 calls outstanding, or a return with none
(R248). -/
def BreachOf (s : State) (f : Fault) : Prop :=
  (f = .unmatchedOpcode s.pc (fetchWord s) ∧ opcodeUnmatched (fetchWord s) = true)
  ∨ (f = .stackOverflow s.pc ∧ (fetchWord s).toNat / 4096 = 2 ∧ s.sp.val = 16)
  ∨ (f = .stackUnderflow s.pc ∧ (fetchWord s).toNat = 0x00EE ∧ s.sp.val = 0)

theorem breachesDuty_iff (s : State) : breachesDuty s = true ↔ ∃ f, BreachOf s f := by
  simp only [breachesDuty, BreachOf, Bool.or_eq_true, Bool.and_eq_true, decide_eq_true_eq, exists_or, exists_eq_left, or_assoc]

theorem decodeWord_call {w : Word} (h : w.toNat / 4096 = 2) : decodeWord w = .ok (.call (opAddr w)) := by
  have hf : opFamily w = 0x2#4 := BitVec.eq_of_toNat_eq ((toNat_opFamily w).trans h)
  calc decodeWord w = decodeWord (encode (.call (opAddr w))) := congrArg decodeWord (formatA_eq hf).symm
    _ = .ok (.call (opAddr w)) := decodeWord_encode _

theorem decodeWord_ret {w : Word} (h : w.toNat = 0x00EE) : decodeWord w = .ok .ret := by
  obtain rfl : w = 0x00EE := BitVec.eq_of_toNat_eq h
  exact decodeWord_encode .ret

/-- Everything known of an instruction that faults: it is CALL with a full call stack, or RET with an empty one. -/
theorem exec_fault {i : Instr} {s : State} {f : Fault} (h : exec i s = .fault f) :
    (∃ addr, i = .call addr ∧ s.sp.val = 16 ∧ f = .stackOverflow s.pc)
    ∨ (i = .ret ∧ s.sp.val = 0 ∧ f = .stackUnderflow s.pc) := by
  cases i with
  | call addr =>
    rcases Nat.lt_or_ge s.sp.val 16 with hroom | hfull
    · rw [exec_call_room addr hroom] at h; cases h
    · have hsp : s.sp.val = 16 := Nat.le_antisymm (Nat.le_of_lt_succ s.sp.isLt) hfull
      rw [exec_call_full addr hsp] at h; cases h
      exact .inl ⟨addr, rfl, hsp, rfl⟩
  | ret =>
    rcases Nat.eq_zero_or_pos s.sp.val with hempty | hcalls
    · rw [exec_ret_empty hempty] at h; cases h
      exact .inr ⟨rfl, hempty, rfl⟩
    · rw [exec_ret_outstanding hcalls] at h; cases h
  | ldVxK x =>
    cases hk : s.typed with
    | none => rw [exec_ldVxK_untyped x hk] at h; cases h
    | some k => rw [exec_ldVxK_typed x hk] at h; cases h
  | _ => cases h

/-- A fault that a step records names the breach at `pc`. -/
theorem breachOf_of_recorded {s : State} {f : Fault}
    (h : (∃ e, decodeWord (fetchWord s) = .error e ∧ f = .unmatchedOpcode s.pc (fetchWord s))
      ∨ ∃ i, decodeWord (fetchWord s) = .ok i ∧ exec i (fetched s) = .fault f) : BreachOf s f := by
  rcases h with ⟨e, he, rfl⟩ | ⟨i, hi, hx⟩
  · exact .inl ⟨rfl, (opcodeUnmatched_of_decodeWord he).1⟩
  · have hw := encode_of_decodeWord hi
    rcases exec_fault hx with ⟨addr, rfl, hsp, rfl⟩ | ⟨rfl, hsp, rfl⟩
    · have hfamily : (fetchWord s).toNat / 4096 = 2 := by
        have haddr := addr.isLt
        have hformat : (encode (.call addr)).toNat = 2 * 4096 + addr.toNat := toNat_formatA 0x2#4 addr
        rw [← hw, hformat]
        omega
      exact .inr (.inl ⟨rfl, hfamily, hsp⟩)
    · exact .inr (.inr ⟨rfl, congrArg BitVec.toNat hw.symm, hsp⟩)

/-- The whole step of an unmatched word: the fault is recorded (R106). -/
theorem stepWith_of_unmatched {p : Params} {s : State} (hdue : dueTurn s = .interpreter) (hf : s.faulted = none)
    (hr : s.runState = .running) (hu : opcodeUnmatched (fetchWord s) = true) :
    stepWith p s = .next (recordFault (.unmatchedOpcode s.pc (fetchWord s)) (fetched s)) := by
  obtain ⟨e, he⟩ := (decodeWord_error_iff _).mpr hu
  have he' : decodeWord (fetchWord (afterDue s)) = .error e := he
  rw [stepWith_of_interpreter hdue, interpreterTurn_of_running (s := afterDue s) hf hr]
  simp only [interpreterStep, he']
  rfl

/-- A step that meets a breach records the fault that names it. -/
theorem stepWith_of_breachOf {p : Params} {s : State} {f : Fault} (hdue : dueTurn s = .interpreter) (hf : s.faulted = none)
    (hr : s.runState = .running) (h : BreachOf s f) : stepWith p s = .next (recordFault f (fetched s)) := by
  rcases h with ⟨rfl, hu⟩ | ⟨rfl, hw, hsp⟩ | ⟨rfl, hw, hsp⟩
  · exact stepWith_of_unmatched hdue hf hr hu
  · rw [stepWith_of_decodeWord hdue hf hr (decodeWord_call hw), exec_call_full _ (s := fetched s) hsp]
    rfl
  · rw [stepWith_of_decodeWord hdue hf hr (decodeWord_ret hw), exec_ret_empty (s := fetched s) hsp]
    rfl

/-- Of the events only a load touches the faulted condition, which it clears. -/
theorem deliver_faulted {e : Event} {s t : State} (h : deliver e s = .next t) :
    ((∃ bytes, e = .load bytes) ∧ t.faulted = none) ∨ ((∀ bytes, e ≠ .load bytes) ∧ t.faulted = s.faulted) := by
  rcases deliver_next h with ⟨bytes, he, -, rfl⟩ | ⟨rfl, -, rfl⟩ | ⟨rfl, rfl⟩ | ⟨rfl, rfl⟩ | ⟨code, rfl, rfl⟩ | ⟨code, rfl, rfl⟩
  · exact .inl ⟨⟨bytes, he⟩, rfl⟩
  · exact .inr ⟨nofun, rfl⟩
  · exact .inr ⟨nofun, (congrArg State.faulted (onRun_frame s) :)⟩
  · exact .inr ⟨nofun, (congrArg State.faulted (onStop_frame s) :)⟩
  · exact .inr ⟨nofun, (congrArg State.faulted (onKeyDown_frame code s) :)⟩
  · exact .inr ⟨nofun, (congrArg State.faulted (onKeyUp_frame code s) :)⟩

/-- A step that enters the faulted condition is the interpreter's, at a breach. -/
theorem stepWith_enters_fault {p : Params} {s t : State} (h : stepWith p s = .next t) (hs : s.faulted = none)
    (ht : t.faulted ≠ none) : dueTurn s = .interpreter ∧ s.runState = .running ∧ ∃ f, BreachOf s f := by
  rcases stepWith_next h with ⟨e, -, hd⟩ | ⟨hdue, -, ⟨-, rfl⟩ | ⟨-, i, u, -, hx, rfl⟩ | ⟨hr, f, rfl, hrec⟩⟩
  · rcases deliver_faulted hd with ⟨-, hnone⟩ | ⟨-, hsame⟩
    · exact absurd hnone ht
    · exact absurd (hsame.trans hs) ht
  · exact absurd hs ht
  · obtain ⟨-, -, -, -, -, -, -, -, -, -, -, -, hexec, -⟩ := unnamedStateStays i (fetched s) u hx
    rw [ranInstr_faulted] at ht
    exact absurd (hexec.trans hs) ht
  · exact ⟨hdue, hr, f, breachOf_of_recorded hrec⟩

theorem deliver_ne_fault (e : Event) (s : State) (f : Fault) : deliver e s ≠ .fault f := by
  cases e with
  | load | loadFail => unfold deliver; cases loopActive s <;> nofun
  | run | stop | keyDown | keyUp => nofun

/-- The step that meets a fault records it and answers a next state (R202). -/
theorem interpreterStep_ne_fault (p : Params) (s : State) (f : Fault) : interpreterStep p s ≠ .fault f := by
  simp only [interpreterStep]
  cases decodeWord (fetchWord s) with
  | error e => nofun
  | ok i =>
    dsimp only
    cases exec i (setOpcode s (fetchWord s)) <;> nofun

/-- The interpreter's turn answers a fault exactly when that fault is recorded. -/
theorem interpreterTurn_fault_iff (p : Params) (s : State) (f : Fault) :
    interpreterTurn p s = .fault f ↔ s.faulted = some f := by
  refine ⟨fun h => ?_, interpreterTurn_of_faulted⟩
  cases hf : s.faulted with
  | some g =>
    rw [interpreterTurn_of_faulted hf] at h
    exact congrArg some (Host.Outcome.fault.inj h)
  | none =>
    by_cases hr : s.runState = .running
    · rw [interpreterTurn_of_running hf hr] at h
      exact absurd h (interpreterStep_ne_fault p s f)
    · rw [interpreterTurn_of_not_running hf hr] at h
      cases h

theorem stepWith_fault_iff (p : Params) (s : State) (f : Fault) :
    stepWith p s = .fault f ↔ dueTurn s = .interpreter ∧ s.faulted = some f := by
  cases hdue : dueTurn s with
  | event e =>
    rw [stepWith_of_event hdue]
    exact ⟨fun h => absurd h (deliver_ne_fault _ _ _), nofun⟩
  | interpreter =>
    rw [stepWith_of_interpreter hdue, interpreterTurn_fault_iff]
    exact (and_iff_right rfl).symm

/-! ## The statements -/

/-- Settles O58: each clause excludes all but one of the cases of `stepWith_keypad`. -/
theorem keypadChangesOnlyByItsAgents : Obligations.KeypadChangesOnlyByItsAgents := by
  intro p s t h
  rcases stepWith_keypad h with ⟨hp, ht⟩ | ⟨code, k, hdue, hk, hp, ht⟩ | ⟨code, k, hdue, hk, hs, hp, ht⟩
    | ⟨hdue, hr, hi, hp, ht⟩
  · rw [hp, ht]
    exact ⟨fun _ h hne => absurd h hne, fun h hne => absurd h hne, fun _ h hne => absurd h hne, fun h hne => absurd h hne⟩
  · rw [hp, ht]
    exact ⟨fun _ h _ => ⟨code, hdue, hk.trans h⟩, nofun, fun _ h hne => absurd h hne, fun h hne => absurd h hne⟩
  · rw [hp, ht]
    exact ⟨nofun, fun _ _ => ⟨code, hdue, hk.trans hs.symm⟩, fun _ h _ => ⟨code, hdue, hk.trans h, hs.trans h⟩, nofun⟩
  · rw [hp, ht]
    exact ⟨fun _ h hne => absurd h hne, fun h hne => absurd h hne, nofun, fun _ _ => ⟨hdue, hr, hi⟩⟩

/-- Settles O45: the three equations of the Scheduler's part. -/
theorem schedulerTicksPerBatch : Obligations.SchedulerTicksPerBatch := by
  refine fun p s => ⟨fun hr hlt => ?_, fun hr hfull hq => ?_, fun hr hfull hq => ?_, fun hr hp => ?_, fun hr hp => ?_⟩
  · rw [afterStep_of_running hr, endOfStep_inside p s hlt]
  · rw [afterStep_of_running hr, endOfStep_full p s hfull.ge]
    simp only [hq, timerTick, Bool.false_eq_true, if_false]
  · rw [afterStep_of_running hr, endOfStep_full p s hfull.ge, hq, if_pos rfl]
  · rw [afterStep_of_halted hr, endOfRun_eq, if_pos hp]
  · rw [afterStep_of_halted hr, endOfRun_eq, hp, if_neg Bool.false_ne_true]

/-- Settles O55: the faults recorded are those of `BreachOf`; what a recorded fault then answers, and what clears it, is said of the
turn that is due. -/
theorem faultsAreExactlyTheBreaches : Obligations.FaultsAreExactlyTheBreaches := by
  refine ⟨fun p s hdue hf hr hb => ?_, fun p s t h hs ht => ?_, stepWith_fault_iff, fun p s t f h hs => ?_⟩
  · obtain ⟨f, hf'⟩ := (breachesDuty_iff s).mp hb
    exact ⟨f, stepWith_of_breachOf hdue hf hr hf', hf'⟩
  · rw [breachesDuty_iff]
    exact stepWith_enters_fault h hs ht
  · rcases stepWith_next h with ⟨e, hdue, hd⟩ | ⟨-, hnone, -⟩
    · rw [hdue]
      rcases deliver_faulted hd with ⟨⟨bytes, rfl⟩, ht⟩ | ⟨he, ht⟩
      · exact ⟨fun _ => ht, fun hne => absurd rfl (hne bytes)⟩
      · exact ⟨fun ⟨bytes, hb⟩ => absurd (Turn.event.inj hb) (he bytes), fun _ => ht.trans hs⟩
    · rw [hs] at hnone; cases hnone

/-- Settles O60: by the cases of `stepWith_next`. An instruction that ran is the one that the word at `pc` decodes to, and CLS and DRW
never fault. -/
theorem outputIsOneGridPerDrawOrClear : Obligations.OutputIsOneGridPerDrawOrClear := by
  intro p s t h
  rcases stepWith_next h with ⟨e, hdue, hd⟩ | ⟨hdue, -, ⟨hr, rfl⟩ | ⟨hr, i, u, hi, hx, rfl⟩ | ⟨-, f, rfl, hrec⟩⟩
  · exact ⟨fun ⟨hint, _⟩ => (nomatch hdue.symm.trans hint), fun _ => deliver_presented (s := afterDue s) hd⟩
  · exact ⟨fun ⟨_, hrun, _⟩ => absurd hrun hr, fun _ => rfl⟩
  · rw [ranInstr_presented, ranInstr_fb]
    refine ⟨fun ⟨_, _, j, hj, hpres⟩ => ?_, fun hnot => ?_⟩
    · obtain rfl : i = j := Except.ok.inj (hi.symm.trans hj)
      exact exec_presents (s := fetched s) hx hpres
    · exact exec_presented_of_not_presents (s := fetched s) hx (Bool.eq_false_iff.mpr fun hpres => hnot ⟨hdue, hr, i, hi, hpres⟩)
  · refine ⟨fun ⟨_, _, j, hj, hpres⟩ => ?_, fun _ => rfl⟩
    rcases hrec with ⟨e, he, -⟩ | ⟨i, hi, hx⟩
    · cases he.symm.trans hj
    · obtain rfl : i = j := Except.ok.inj (hi.symm.trans hj)
      rcases exec_fault hx with ⟨addr, rfl, -⟩ | ⟨rfl, -⟩ <;> cases hpres

/-- Settles O44: one tick as a number, and k of them by induction. -/
theorem ticksFloorAtZero : Obligations.TicksFloorAtZero :=
  fun s => ⟨decay_toNat s.delay, decay_toNat s.sound, rfl, timerTick_iterate_toNat s⟩

/-- Settles O46: the event is delivered whatever the run state, and the code's key, if it has one, fixes what it does. -/
theorem keyDownSetsPressed : Obligations.KeyDownSetsPressed :=
  fun _ s => ⟨fun _ hk => congrArg _ (onKeyDown_mapped s hk), fun hk => congrArg _ (onKeyDown_unmapped s hk)⟩

/-- Settles O47: the event is delivered whatever the run state, and whether the code's key is the pressed one fixes what it does. -/
theorem keyUpMovesPressedToTyped : Obligations.KeyUpMovesPressedToTyped :=
  fun _ s => ⟨fun _ hk hp => congrArg _ (onKeyUp_pressed hk hp), fun _ hk hp => congrArg _ (onKeyUp_other hk hp),
    fun hk => congrArg _ (onKeyUp_unmapped s hk)⟩

/-- Settles O48: the events one after another; the displaced key's release finds the other key pressed. -/
theorem keypadLaws : Obligations.KeypadLaws := by
  intro code₁ code₂ k l s hk hl hne
  have hpress : onKeyUp code₁ (onKeyDown code₁ s) = { s with pressed := none, typed := some k } := by
    rw [onKeyDown_mapped s hk, onKeyUp_pressed hk rfl]
  have hdisplaced : onKeyUp code₁ (onKeyDown code₂ (onKeyDown code₁ s)) = { s with pressed := some l } := by
    rw [onKeyDown_mapped s hk, onKeyDown_mapped _ hl, onKeyUp_other hk fun h => hne (Option.some.inj h).symm]
  refine ⟨hpress, hdisplaced, ?_, ?_⟩
  · rw [hdisplaced, onKeyUp_pressed hl rfl]
  · rw [hpress, onKeyDown_mapped _ hl, onKeyUp_pressed hl rfl]

/-- Settles O49: the table row by row; each code with a key is that key's legend, so that the mapping is a bijection onto the keys. -/
theorem keyMapIsTheTable : Obligations.KeyMapIsTheTable :=
  ⟨rfl, fun _ => rfl, fun k => ⟨_, keyMap_legend k⟩,
    fun _ _ _ h₁ h₂ => (eq_legend_of_keyMap h₁).trans (eq_legend_of_keyMap h₂).symm⟩

end Sys2Proof.Machine
end

section
/-! SUPPORT. The host's events (spec 70_reset_and_hazards.md R240 to R246). A load writes the font over the reset contents, which hold it
already, so that what it leaves in RAM is the ROM's bytes over reset RAM; run and stop act by the run state. -/

namespace Sys2Proof.Machine

/-! ## Load (R240 to R244) -/

/-- No cell is listed at reset, and none is listed to hold the reset byte of its address. -/
theorem memWrite_resetByte (a : Nat) : memWrite State.reset.mem a (resetByte a) = State.reset.mem := by
  simp [memWrite, State.reset, eraseCell]

theorem memWriteBytes_resetBytes (bs : List Byte) (a : Nat) (h : ∀ k : Fin bs.length, bs[k] = resetByte (a + k)) :
    memWriteBytes State.reset.mem a bs = State.reset.mem := by
  induction bs generalizing a with
  | nil => rfl
  | cons b bs ih =>
    have hb : b = resetByte a := h 0
    rw [memWriteBytes, hb, memWrite_resetByte]
    exact ih (a + 1) fun k => by rw [Nat.add_right_comm]; exact h k.succ

/-- The reset contents hold the font already, so writing it again changes nothing (R28, R242). -/
theorem memWriteBytes_font_reset : memWriteBytes State.reset.mem fontBase fontBytes = State.reset.mem :=
  memWriteBytes_resetBytes fontBytes fontBase (by decide)

theorem loadRom_mem (bytes : List Byte) (s : State) : (loadRom bytes s).mem = memWriteBytes State.reset.mem 0 bytes :=
  congrArg (memWriteBytes · 0 bytes) memWriteBytes_font_reset

theorem memRead_loadRom (bytes : List Byte) (s : State) (a : Nat) :
    memRead (loadRom bytes s).mem a
      = if a < bytes.length ∧ a < memSize then bytes.getD a 0 else memRead State.reset.mem a := by
  rw [loadRom_mem, memRead_memWriteBytes]
  simp only [Nat.zero_le, true_and, Nat.zero_add, Nat.sub_zero]

/-- A load is the reset of the machine with the faulted condition left and the ROM in memory (R202, R242). -/
theorem loadRom_eq (bytes : List Byte) (s : State) :
    loadRom bytes s = { resetMachine s with mem := (loadRom bytes s).mem, faulted := none } := rfl

theorem loopActive_eq_false_iff (s : State) : loopActive s = false ↔ s.runState ≠ .running ∨ s.faulted ≠ none := by
  rw [← Bool.not_eq_true, loopActive_iff, Decidable.not_and_iff_or_not]

theorem deliver_load_accepted (bytes : List Byte) {s : State} (h : loopActive s = false) :
    deliver (.load bytes) s = .next (loadRom bytes s) := if_neg (Bool.eq_false_iff.mp h)

theorem deliver_loadFail_accepted {s : State} (h : loopActive s = false) : deliver .loadFail s = .next (resetMachine s) :=
  if_neg (Bool.eq_false_iff.mp h)

theorem deliver_load_active (bytes : List Byte) {s : State} (h : loopActive s = true) :
    deliver (.load bytes) s = .refused .loadWhileRunning := if_pos h

theorem deliver_loadFail_active {s : State} (h : loopActive s = true) : deliver .loadFail s = .refused .loadWhileRunning :=
  if_pos h

/-! ## Run and stop (R245, R246) -/

theorem onRun_notRunning {s : State} (h : s.runState = .notRunning) :
    onRun s = { s with runState := .running, batchCtr := 0, stopReq := false } := by
  rw [onRun, h]

theorem onRun_of_ne_notRunning {s : State} (h : s.runState ≠ .notRunning) : onRun s = s := by
  unfold onRun
  split
  · next hr => exact absurd hr h
  · rfl
  · rfl

theorem onStop_running {s : State} (h : s.runState = .running) : onStop s = { s with stopReq := true } := by
  rw [onStop, h]

theorem onStop_of_ne_running {s : State} (h : s.runState ≠ .running) : onStop s = s := by
  unfold onStop
  split
  · rfl
  · next hr => exact absurd hr h
  · rfl

/-! ## The statements -/

/-- Settles O50: whether a run loop is active decides acceptance, and RAM after a load is the ROM's bytes written over reset RAM. -/
theorem loadResetsAndCopies : Obligations.LoadResetsAndCopies := by
  refine fun bytes s => ⟨fun h => ?_, fun hrun hnofault => ?_⟩
  · have hidle : loopActive s = false := (loopActive_eq_false_iff s).mpr h
    exact ⟨⟨loadRom bytes s, deliver_load_accepted bytes hidle, memRead_loadRom bytes s, loadRom_eq bytes s⟩,
      deliver_loadFail_accepted hidle⟩
  · have hactive : loopActive s = true := (loopActive_iff s).mpr ⟨hrun, hnofault⟩
    exact ⟨deliver_load_active bytes hactive, deliver_loadFail_active hactive⟩

/-- Settles O51: both events are delivered whatever the run state, which fixes what they do. -/
theorem runAndStopActInOneState : Obligations.RunAndStopActInOneState := by
  refine fun s => ⟨fun h => ?_, fun h => ?_, fun h => ?_⟩
  · exact ⟨congrArg _ (onRun_notRunning h), congrArg _ (onStop_of_ne_running (by simp [h]))⟩
  · exact ⟨congrArg _ (onRun_of_ne_notRunning (by simp [h])), congrArg _ (onStop_running h)⟩
  · exact ⟨congrArg _ (onRun_of_ne_notRunning (by simp [h])), congrArg _ (onStop_of_ne_running (by simp [h]))⟩

end Sys2Proof.Machine
end
